-- ==== Sys2Proof/Word.lean ====
section
/-! DEFINITION. The word types of the analyzer capture core (spec rules R10, R18, R32, R33): widths only; every value is an
unsigned bit vector. -/

namespace Sys2Proof

/-- A lane of a sample, a stored word, a timer value (R8: `LANE_BITS`, `WORD_BITS`, `TIMED_VALUE_BITS`, all 32). -/
abbrev Word := BitVec 32

/-- One half of a stored word, for the packed ALU ops (R175, R176). -/
abbrev Half := BitVec 16

/-- One byte of a lane (R18). -/
abbrev Byte := BitVec 8

/-- A word address of the ring store (R50: `RING_ADDR_BITS` = 11). -/
abbrev RingAddr := BitVec 11

/-- A ring pointer: 11 address bits and one wrap bit (R33: `PTR_BITS` = 12). Also the type of a level and a threshold. -/
abbrev RingPtr := BitVec 12

end Sys2Proof
end

