-- ==== Sys2Proof/Config.lean ====
section
/-! DEFINITION. What an implementation fixes, and the free values. The numbers the spec fixes (R8, R9) stand as literals in the
rules that use them; here stand the two parameters the spec leaves open that reset needs a value for, and the values the spec
leaves unspecified, each an opaque constant of which nothing can be proved. -/

namespace Sys2Proof

/-- DESIGN CHOICE (log entry 2), unsafe: the number of nodes of `State.reset`. R9 leaves `N` open (N ≥ 1); the source's example
uses 8. Every rule of the model works on a chain of any length, so no statement about every state rests on this number. -/
def Config.chainLengthAtReset : Nat := 8

/-- DESIGN CHOICE (log entry 3), unsafe: the master's time-out in `State.reset`. R9 leaves `MASTER_TIMEOUT` open (≥ 1); R117 says
any value ≥ 1 suffices. The machine reads the time-out from `State.params`, so statements hold for every value. -/
def Config.masterTimeoutAtReset : Nat := 1

/-- FREE VALUE (log entry 4): the word at address `a` of the store if nothing has written it since power-up. R49 and entry U1 of
`93_implementation_defined.md`: "model `mem` at reset as an arbitrary function of the address". -/
opaque Config.powerUpWord : Nat → Word

/-- FREE VALUE (log entry 5): the result of an ALU op whose code is 9..15, as a fresh value for each capture tick (`State.free`).
R167: "Codes 9..15 have no defined result" (U2). -/
opaque Config.reservedAluResult : Nat → Word

/-- FREE VALUE (log entry 6): the byte that condition `slot` (second argument) looks at in a capture tick (`State.free`, first
argument) when its `condition_select` is 2 or 3. R120: "the selection is unspecified for them" (U3). -/
opaque Config.reservedSelectedByte : Nat → Nat → Byte

end Sys2Proof
end

