-- ==== Sys2Proof/Syntax.lean ====
section
/-! DEFINITION. The operations of the core as syntax: one constructor of `Instr` per row of spec/opcode_table.json. An operand of
a constructor is a field the row's encoding has, or one the table says is carried beside the code; every other operand of an
operation is read from the records on the ports (R22, R85). -/

namespace Sys2Proof

/-- ByteCondition (R41): one masked one-byte comparison. -/
structure ByteCondition where
  /-- accept the byte whatever the sample's validity tag (R122) -/
  ignoreValid : Bool
  /-- bit 2 the lane (0 or 1), bits 1:0 the byte (R74) -/
  byteSelect : BitVec 3
  mask : Byte
  /-- the spec's field `match` -/
  pattern : Byte
  /-- 0 `CSEL_LANE`, 1 `CSEL_DATA_1`, 2 and 3 reserved (R75) -/
  conditionSelect : BitVec 2
deriving DecidableEq, Repr

/-- The two requests whose `op` field carries a `RINGOP2` code (R81): the host's service request (`svc_req.op`) and the write
controller's record request (`rcfg.record_op`). -/
inductive ReqPort where
  | service
  | record
deriving DecidableEq, Repr

/-- The formats of R68, and the four pseudo-formats of opcode_table.json. -/
inductive Format where
  | ctl7
  | mop
  | treq4
  | act6
  | csel2
  | ringop2
  | aluop4
  | bc22
  | aset48
  | recflag
  | cfg
deriving DecidableEq, Repr

/-- An encoded operation: its format (the port it is presented at) and the number its bits make. No format has a prefix and no
mode changes how another is decoded (R68), so the format is known from the port and is not part of the bits. -/
structure Code where
  fmt : Format
  word : Nat
deriving DecidableEq, Repr

/-- One operation presented to the core on one clock tick (R3). -/
inductive Instr where
  -- CTL7: a control-bus word (R69, R70); `data` and `select` are carried also where no node examines them, since a node
  -- forwards them (R93)
  | ctlIdle (data : BitVec 4) (select : Bool)
  | ctlShift (s : Bool)
  | ctlSelectNone
  | ctlSelectAll
  | ctlRsvd2 (select : Bool)
  | ctlRsvd3 (select : Bool)
  | ctlRsvd4 (select : Bool)
  | ctlRsvd5 (select : Bool)
  | ctlRsvd6 (select : Bool)
  | ctlRsvd7 (select : Bool)
  | ctlRsvd8 (select : Bool)
  | ctlRsvd9 (select : Bool)
  | ctlRsvd10 (select : Bool)
  | ctlRsvd11 (select : Bool)
  | ctlRsvd12 (select : Bool)
  | ctlRsvd13 (select : Bool)
  | ctlRsvd14 (select : Bool)
  | ctlRsvd15 (select : Bool)
  | ctlHold (data : BitVec 4) (select : Bool)
  | ctlNibble (d : BitVec 4) (select : Bool)
  -- MOP: a master op (R72); the operands `k` and `d` are carried beside the code
  | mopNone
  | mopSelectNone
  | mopSelectAll
  | mopSelect (k : Nat)
  | mopEnable
  | mopWriteNibble (d : BitVec 4)
  | mopClearEnable
  | mopRsvd7
  -- TREQ4: a trigger request word (R80). A word is named by its lowest set flag and carries the higher flags as operands; the
  -- word 0, which has none, is the low level of `TRIG_ENABLE`, a constructor beside the row's own (log entry 17)
  | trigEnable (clear start stop : Bool)
  | trigEnableLow
  | trigClear (start stop : Bool)
  | trigStart (stop : Bool)
  | trigStop
  -- ACT6: an action descriptor (R78). A word is named by its lowest set flag and carries the higher flags and
  -- `capture_data_select` as operands
  | actNop (select : BitVec 2)
  | actHalt (data time inval : Bool) (select : BitVec 2)
  | actRecordData (time inval : Bool) (select : BitVec 2)
  | actRecordTime (inval : Bool) (select : BitVec 2)
  | actRecordInvalidate (select : BitVec 2)
  -- CSEL2: the byte source of condition `slot` (R75)
  | cselLane (slot : BitVec 2)
  | cselData1 (slot : BitVec 2)
  | cselRsvd2 (slot : BitVec 2)
  | cselRsvd3 (slot : BitVec 2)
  -- BC22, ASET48: the operands of the byte match and of the action lookup (R73, R77)
  | byteMatch (slot : BitVec 2) (bc : ByteCondition)
  | actionLookup (entries : Vector (BitVec 3) 16)
  -- RINGOP2: an addressing op at one of the two requests (R81)
  | access (port : ReqPort)
  | resetPtrs (port : ReqPort)
  | push (port : ReqPort)
  | pop (port : ReqPort)
  -- RECFLAG: the retract, a flag of the record request (R165)
  | retract
  -- ALUOP4: an ALU op (R82)
  | write8
  | write16
  | write32
  | inc32
  | sum32
  | min32
  | max32
  | minMax16
  | inc16Add16
  | aluRsvd9
  | aluRsvd10
  | aluRsvd11
  | aluRsvd12
  | aluRsvd13
  | aluRsvd14
  | aluRsvd15
  -- CFG: operations steered by configuration fields only (R68)
  | filterMatch
  | filterChange
  | valueBound (maxMin : Bool)
  | offsetBound (useData1 noBkts : Bool)
  | timerTick (timerDiv : Byte)
  | timerCapture
  | roRequest
deriving DecidableEq, Repr

end Sys2Proof
end

