-- ==== Sys2Proof/WellFormed.lean ====
section
/-! DEFINITION. Which operations the spec calls legal (R86): the reserved codes, the addressing ops at a request that may not
carry them, and a ByteCondition with a reserved `condition_select` are ill-formed. Decoding and `exec` do not depend on it: the
hardware refuses nothing by trapping (R183). -/

namespace Sys2Proof

/-- R75, R86 (U3): only the codes 0 and 1 of `condition_select` are legal. -/
def ByteCondition.legal (bc : ByteCondition) : Bool := decide (bc.conditionSelect.toNat < 2)

/-- R86: the legal operations. One check for each row of R86 that an operation's own bits decide. -/
def Instr.wellFormed : Instr → Bool
  | .ctlIdle _ _ => true
  | .ctlShift _ => true
  | .ctlSelectNone => true
  | .ctlSelectAll => true
  | .ctlRsvd2 _ => false
  | .ctlRsvd3 _ => false
  | .ctlRsvd4 _ => false
  | .ctlRsvd5 _ => false
  | .ctlRsvd6 _ => false
  | .ctlRsvd7 _ => false
  | .ctlRsvd8 _ => false
  | .ctlRsvd9 _ => false
  | .ctlRsvd10 _ => false
  | .ctlRsvd11 _ => false
  | .ctlRsvd12 _ => false
  | .ctlRsvd13 _ => false
  | .ctlRsvd14 _ => false
  | .ctlRsvd15 _ => false
  | .ctlHold _ _ => true
  | .ctlNibble _ _ => true
  | .mopNone => true
  | .mopSelectNone => true
  | .mopSelectAll => true
  | .mopSelect _ => true
  | .mopEnable => true
  | .mopWriteNibble _ => true
  | .mopClearEnable => true
  | .mopRsvd7 => false
  | .trigEnable _ _ _ => true
  | .trigEnableLow => true
  | .trigClear _ _ => true
  | .trigStart _ => true
  | .trigStop => true
  | .actNop _ => true
  | .actHalt _ _ _ _ => true
  | .actRecordData _ _ _ => true
  | .actRecordTime _ _ => true
  | .actRecordInvalidate _ => true
  | .cselLane _ => true
  | .cselData1 _ => true
  | .cselRsvd2 _ => false
  | .cselRsvd3 _ => false
  | .byteMatch _ bc => bc.legal
  | .actionLookup _ => true
  | .access _ => true
  | .resetPtrs port => port == .service
  | .push port => port == .record
  | .pop port => port == .service
  | .retract => true
  | .write8 => true
  | .write16 => true
  | .write32 => true
  | .inc32 => true
  | .sum32 => true
  | .min32 => true
  | .max32 => true
  | .minMax16 => true
  | .inc16Add16 => true
  | .aluRsvd9 => false
  | .aluRsvd10 => false
  | .aluRsvd11 => false
  | .aluRsvd12 => false
  | .aluRsvd13 => false
  | .aluRsvd14 => false
  | .aluRsvd15 => false
  | .filterMatch => true
  | .filterChange => true
  | .valueBound _ => true
  | .offsetBound _ _ => true
  | .timerTick _ => true
  | .timerCapture => true
  | .roRequest => true

end Sys2Proof
end

