-- ==== Sys2Proof/Decode.lean ====
section
/-! DEFINITION. The decoder, total on every format and every number and rejecting by name, and the encoder (spec
`30_encoding.md`). Bit 0 is the least significant bit of a word. -/

namespace Sys2Proof

/-- Why a number is no operation of a format. -/
inductive DecodeError where
  /-- the number has a bit above the format's width -/
  | tooWide (fmt : Format)
  /-- no row of the format has this code -/
  | noSuchCode (fmt : Format)
deriving DecidableEq, Repr

/-- R69, R70: a `CTL7` word, bit 6 `valid`, 5:2 `data`, 1 `enable`, 0 `select`. The classes cover all 128 words. -/
def decodeCtl7 (w : BitVec 7) : Instr :=
  let data : BitVec 4 := w.extractLsb' 2 4
  let select := w.getLsbD 0
  match w.getLsbD 1, w.getLsbD 6 with
  | true, false => .ctlHold data select
  | true, true => .ctlNibble data select
  | false, false => .ctlIdle data select
  | false, true =>
    match data.toNat with
    | 0 => .ctlShift select
    | 1 => if select then .ctlSelectAll else .ctlSelectNone
    | 2 => .ctlRsvd2 select
    | 3 => .ctlRsvd3 select
    | 4 => .ctlRsvd4 select
    | 5 => .ctlRsvd5 select
    | 6 => .ctlRsvd6 select
    | 7 => .ctlRsvd7 select
    | 8 => .ctlRsvd8 select
    | 9 => .ctlRsvd9 select
    | 10 => .ctlRsvd10 select
    | 11 => .ctlRsvd11 select
    | 12 => .ctlRsvd12 select
    | 13 => .ctlRsvd13 select
    | 14 => .ctlRsvd14 select
    | _ => .ctlRsvd15 select

/-- R72: a `MOP` word: the code in bits 2:0. The operand is "carried beside the code": here in the bits above it (log entry 8). -/
def decodeMop (w : Nat) : Except DecodeError Instr :=
  let operand := w / 8
  match w % 8 with
  | 3 => .ok (.mopSelect operand)
  | 5 => if operand < 16 then .ok (.mopWriteNibble (BitVec.ofNat 4 operand)) else .error (.tooWide .mop)
  | code =>
    if operand ≠ 0 then .error (.tooWide .mop)
    else
      match code with
      | 0 => .ok .mopNone
      | 1 => .ok .mopSelectNone
      | 2 => .ok .mopSelectAll
      | 4 => .ok .mopEnable
      | 6 => .ok .mopClearEnable
      | _ => .ok .mopRsvd7

/-- R80: a `TREQ4` word: bit 0 `enable`, 1 `clear`, 2 `start`, 3 `stop`; the flags are not exclusive, and "all 16 combinations are
legal". -/
def decodeTreq4 (w : BitVec 4) : Instr :=
  let clear := w.getLsbD 1
  let start := w.getLsbD 2
  let stop := w.getLsbD 3
  if w.getLsbD 0 then .trigEnable clear start stop
  else if clear then .trigClear start stop
  else if start then .trigStart stop
  else if stop then .trigStop
  else .trigEnableLow

/-- R78: an `ACT6` word: bit 0 `halt_capture`, 1 `record_data`, 2 `record_time`, 3 `record_invalidate`, 5:4
`capture_data_select`. -/
def decodeAct6 (w : BitVec 6) : Instr :=
  let data := w.getLsbD 1
  let time := w.getLsbD 2
  let inval := w.getLsbD 3
  let select : BitVec 2 := w.extractLsb' 4 2
  if w.getLsbD 0 then .actHalt data time inval select
  else if data then .actRecordData time inval select
  else if time then .actRecordTime inval select
  else if inval then .actRecordInvalidate select
  else .actNop select

/-- R75: a `CSEL2` word: the code in bits 1:0; the condition it is presented to in bits 3:2 (log entry 8). -/
def decodeCsel2 (w : BitVec 4) : Instr :=
  let slot : BitVec 2 := w.extractLsb' 2 2
  match (w.extractLsb' 0 2).toNat with
  | 0 => .cselLane slot
  | 1 => .cselData1 slot
  | 2 => .cselRsvd2 slot
  | _ => .cselRsvd3 slot

/-- R73: the packed ByteCondition, 22 bits. -/
def unpackByteCondition (w : BitVec 22) : ByteCondition where
  ignoreValid := w.getLsbD 0
  byteSelect := w.extractLsb' 1 3
  mask := w.extractLsb' 4 8
  pattern := w.extractLsb' 12 8
  conditionSelect := w.extractLsb' 20 2

/-- R73, packing. -/
def packByteCondition (bc : ByteCondition) : BitVec 22 :=
  bc.conditionSelect ++ bc.pattern ++ bc.mask ++ bc.byteSelect ++ BitVec.ofBool bc.ignoreValid

/-- R77: entry `i` of the ActionSet is bits [3i+2:3i] of its 48 bits. -/
def unpackActionSet (w : BitVec 48) : Vector (BitVec 3) 16 :=
  Vector.ofFn fun i : Fin 16 => w.extractLsb' (3 * i.val) 3

/-- R77, packing: entry 15 in the most significant position. -/
def packActionSet (e : Vector (BitVec 3) 16) : BitVec 48 :=
  e[15] ++ e[14] ++ e[13] ++ e[12] ++ e[11] ++ e[10] ++ e[9] ++ e[8] ++ e[7] ++ e[6] ++ e[5] ++ e[4] ++ e[3] ++ e[2] ++ e[1] ++ e[0]

/-- R81: a `RINGOP2` code in bits 1:0; the request that carries it in bit 2 (0 service, 1 record; log entry 8). -/
def decodeRingop2 (w : BitVec 3) : Instr :=
  let port : ReqPort := if w.getLsbD 2 then .record else .service
  match (w.extractLsb' 0 2).toNat with
  | 0 => .access port
  | 1 => .resetPtrs port
  | 2 => .push port
  | _ => .pop port

/-- R82: an `ALUOP4` code. -/
def decodeAluop4 (w : Nat) : Except DecodeError Instr :=
  match w with
  | 0 => .ok .write8
  | 1 => .ok .write16
  | 2 => .ok .write32
  | 3 => .ok .inc32
  | 4 => .ok .sum32
  | 5 => .ok .min32
  | 6 => .ok .max32
  | 7 => .ok .minMax16
  | 8 => .ok .inc16Add16
  | 9 => .ok .aluRsvd9
  | 10 => .ok .aluRsvd10
  | 11 => .ok .aluRsvd11
  | 12 => .ok .aluRsvd12
  | 13 => .ok .aluRsvd13
  | 14 => .ok .aluRsvd14
  | 15 => .ok .aluRsvd15
  | _ => .error (.tooWide .aluop4)

/-- The CFG rows have no code in the spec ("Encoding: none (record)"): the model numbers them in the table's order in bits 2:0 and
puts the fields the table lists for the row above (log entry 8). -/
def decodeCfg (w : BitVec 16) : Except DecodeError Instr :=
  let arg : BitVec 13 := w.extractLsb' 3 13
  match (w.extractLsb' 0 3).toNat with
  | 0 => if arg = 0 then .ok .filterMatch else .error (.noSuchCode .cfg)
  | 1 => if arg = 0 then .ok .filterChange else .error (.noSuchCode .cfg)
  | 2 => if w.extractLsb' 4 12 = 0 then .ok (.valueBound (w.getLsbD 3)) else .error (.noSuchCode .cfg)
  | 3 => if w.extractLsb' 5 11 = 0 then .ok (.offsetBound (w.getLsbD 3) (w.getLsbD 4)) else .error (.noSuchCode .cfg)
  | 4 => if w.extractLsb' 3 5 = 0 then .ok (.timerTick (w.extractLsb' 8 8)) else .error (.noSuchCode .cfg)
  | 5 => if arg = 0 then .ok .timerCapture else .error (.noSuchCode .cfg)
  | 6 => if arg = 0 then .ok .roRequest else .error (.noSuchCode .cfg)
  | _ => .error (.noSuchCode .cfg)

/-- The width of a format's word in the model; `none` for `MOP`, whose operand has no stated width (R68: "3 + operand"). -/
def Format.width : Format → Option Nat
  | .ctl7 => some 7
  | .mop => none
  | .treq4 => some 4
  | .act6 => some 6
  | .csel2 => some 4
  | .ringop2 => some 3
  | .aluop4 => some 4
  | .bc22 => some 24
  | .aset48 => some 48
  | .recflag => some 1
  | .cfg => some 16

/-- Whether a number fits a format's width. -/
def Format.fits (f : Format) (w : Nat) : Bool :=
  match f.width with
  | some n => decide (w < 2 ^ n)
  | none => true

/-- The decoder: total on every format and every number. -/
def decode (c : Code) : Except DecodeError Instr :=
  if c.fmt.fits c.word then
    match c.fmt with
    | .ctl7 => .ok (decodeCtl7 (BitVec.ofNat 7 c.word))
    | .mop => decodeMop c.word
    | .treq4 => .ok (decodeTreq4 (BitVec.ofNat 4 c.word))
    | .act6 => .ok (decodeAct6 (BitVec.ofNat 6 c.word))
    | .csel2 => .ok (decodeCsel2 (BitVec.ofNat 4 c.word))
    | .ringop2 => .ok (decodeRingop2 (BitVec.ofNat 3 c.word))
    | .aluop4 => decodeAluop4 c.word
    | .bc22 => .ok (.byteMatch (BitVec.ofNat 2 (c.word / 2 ^ 22)) (unpackByteCondition (BitVec.ofNat 22 c.word)))
    | .aset48 => .ok (.actionLookup (unpackActionSet (BitVec.ofNat 48 c.word)))
    | .recflag => if c.word = 1 then .ok .retract else .error (.noSuchCode .recflag)
    | .cfg => decodeCfg (BitVec.ofNat 16 c.word)
  else .error (.tooWide c.fmt)

/-- R69: the number of a `CTL7` word. -/
def ctl7Bits (valid : Bool) (data : BitVec 4) (enable select : Bool) : Nat :=
  64 * valid.toNat + 4 * data.toNat + 2 * enable.toNat + select.toNat

/-- R80: the number of a `TREQ4` word. -/
def treq4Bits (enable clear start stop : Bool) : Nat :=
  enable.toNat + 2 * clear.toNat + 4 * start.toNat + 8 * stop.toNat

/-- R78: the number of an `ACT6` word. -/
def act6Bits (halt data time inval : Bool) (select : BitVec 2) : Nat :=
  halt.toNat + 2 * data.toNat + 4 * time.toNat + 8 * inval.toNat + 16 * select.toNat

/-- R81 with the port bit of log entry 8. -/
def ringop2Bits (code : Nat) : ReqPort → Nat
  | .service => code
  | .record => code + 4

/-- The encoder: the format and the number of every operation, written from the encoding tables of `30_encoding.md`. -/
def encode : Instr → Code
  | .ctlIdle data select => ⟨.ctl7, ctl7Bits false data false select⟩
  | .ctlShift s => ⟨.ctl7, ctl7Bits true 0 false s⟩
  | .ctlSelectNone => ⟨.ctl7, ctl7Bits true 1 false false⟩
  | .ctlSelectAll => ⟨.ctl7, ctl7Bits true 1 false true⟩
  | .ctlRsvd2 select => ⟨.ctl7, ctl7Bits true 2 false select⟩
  | .ctlRsvd3 select => ⟨.ctl7, ctl7Bits true 3 false select⟩
  | .ctlRsvd4 select => ⟨.ctl7, ctl7Bits true 4 false select⟩
  | .ctlRsvd5 select => ⟨.ctl7, ctl7Bits true 5 false select⟩
  | .ctlRsvd6 select => ⟨.ctl7, ctl7Bits true 6 false select⟩
  | .ctlRsvd7 select => ⟨.ctl7, ctl7Bits true 7 false select⟩
  | .ctlRsvd8 select => ⟨.ctl7, ctl7Bits true 8 false select⟩
  | .ctlRsvd9 select => ⟨.ctl7, ctl7Bits true 9 false select⟩
  | .ctlRsvd10 select => ⟨.ctl7, ctl7Bits true 10 false select⟩
  | .ctlRsvd11 select => ⟨.ctl7, ctl7Bits true 11 false select⟩
  | .ctlRsvd12 select => ⟨.ctl7, ctl7Bits true 12 false select⟩
  | .ctlRsvd13 select => ⟨.ctl7, ctl7Bits true 13 false select⟩
  | .ctlRsvd14 select => ⟨.ctl7, ctl7Bits true 14 false select⟩
  | .ctlRsvd15 select => ⟨.ctl7, ctl7Bits true 15 false select⟩
  | .ctlHold data select => ⟨.ctl7, ctl7Bits false data true select⟩
  | .ctlNibble d select => ⟨.ctl7, ctl7Bits true d true select⟩
  | .mopNone => ⟨.mop, 0⟩
  | .mopSelectNone => ⟨.mop, 1⟩
  | .mopSelectAll => ⟨.mop, 2⟩
  | .mopSelect k => ⟨.mop, 3 + 8 * k⟩
  | .mopEnable => ⟨.mop, 4⟩
  | .mopWriteNibble d => ⟨.mop, 5 + 8 * d.toNat⟩
  | .mopClearEnable => ⟨.mop, 6⟩
  | .mopRsvd7 => ⟨.mop, 7⟩
  | .trigEnable clear start stop => ⟨.treq4, treq4Bits true clear start stop⟩
  | .trigEnableLow => ⟨.treq4, 0⟩
  | .trigClear start stop => ⟨.treq4, treq4Bits false true start stop⟩
  | .trigStart stop => ⟨.treq4, treq4Bits false false true stop⟩
  | .trigStop => ⟨.treq4, treq4Bits false false false true⟩
  | .actNop select => ⟨.act6, act6Bits false false false false select⟩
  | .actHalt data time inval select => ⟨.act6, act6Bits true data time inval select⟩
  | .actRecordData time inval select => ⟨.act6, act6Bits false true time inval select⟩
  | .actRecordTime inval select => ⟨.act6, act6Bits false false true inval select⟩
  | .actRecordInvalidate select => ⟨.act6, act6Bits false false false true select⟩
  | .cselLane slot => ⟨.csel2, 0 + 4 * slot.toNat⟩
  | .cselData1 slot => ⟨.csel2, 1 + 4 * slot.toNat⟩
  | .cselRsvd2 slot => ⟨.csel2, 2 + 4 * slot.toNat⟩
  | .cselRsvd3 slot => ⟨.csel2, 3 + 4 * slot.toNat⟩
  | .byteMatch slot bc => ⟨.bc22, (packByteCondition bc).toNat + 2 ^ 22 * slot.toNat⟩
  | .actionLookup entries => ⟨.aset48, (packActionSet entries).toNat⟩
  | .access port => ⟨.ringop2, ringop2Bits 0 port⟩
  | .resetPtrs port => ⟨.ringop2, ringop2Bits 1 port⟩
  | .push port => ⟨.ringop2, ringop2Bits 2 port⟩
  | .pop port => ⟨.ringop2, ringop2Bits 3 port⟩
  | .retract => ⟨.recflag, 1⟩
  | .write8 => ⟨.aluop4, 0⟩
  | .write16 => ⟨.aluop4, 1⟩
  | .write32 => ⟨.aluop4, 2⟩
  | .inc32 => ⟨.aluop4, 3⟩
  | .sum32 => ⟨.aluop4, 4⟩
  | .min32 => ⟨.aluop4, 5⟩
  | .max32 => ⟨.aluop4, 6⟩
  | .minMax16 => ⟨.aluop4, 7⟩
  | .inc16Add16 => ⟨.aluop4, 8⟩
  | .aluRsvd9 => ⟨.aluop4, 9⟩
  | .aluRsvd10 => ⟨.aluop4, 10⟩
  | .aluRsvd11 => ⟨.aluop4, 11⟩
  | .aluRsvd12 => ⟨.aluop4, 12⟩
  | .aluRsvd13 => ⟨.aluop4, 13⟩
  | .aluRsvd14 => ⟨.aluop4, 14⟩
  | .aluRsvd15 => ⟨.aluop4, 15⟩
  | .filterMatch => ⟨.cfg, 0⟩
  | .filterChange => ⟨.cfg, 1⟩
  | .valueBound maxMin => ⟨.cfg, 2 + 8 * maxMin.toNat⟩
  | .offsetBound useData1 noBkts => ⟨.cfg, 3 + 8 * useData1.toNat + 16 * noBkts.toNat⟩
  | .timerTick timerDiv => ⟨.cfg, 4 + 256 * timerDiv.toNat⟩
  | .timerCapture => ⟨.cfg, 5⟩
  | .roRequest => ⟨.cfg, 6⟩

/-- The code that a bare number of the opcode table stands for (log entry 9). The table's numbers carry no format and the formats
share their numbers (0 is `CTL_IDLE`, `MOP_NONE`, `write8`, `access`, `CSEL_LANE` and `ACT_NOP`), so the model reads a number of at
most 8 bits in the first of these formats in which it is canonical: the words `CTL_IDLE` and `CTL_HOLD` of R71; a master op code; an
ALU op code; any other `CTL7` word. A wider number is read in the one format of its size. -/
def tableCode (nbits w : Nat) : Code :=
  if nbits ≤ 8 then
    if w = 0 ∨ w = 2 then ⟨.ctl7, w⟩
    else if w < 8 then ⟨.mop, w⟩
    else if w < 16 then ⟨.aluop4, w⟩
    else ⟨.ctl7, w⟩
  else if nbits ≤ 16 then ⟨.cfg, 4 + 256 * (w / 256 % 256)⟩
  else if nbits ≤ 24 then ⟨.bc22, w⟩
  else ⟨.aset48, w⟩

/-- The operation the decoder reads from a bare number of the opcode table. -/
def decodeTableWord (nbits w : Nat) : Option Instr :=
  match decode (tableCode nbits w) with
  | .ok i => some i
  | .error _ => none

end Sys2Proof
end

