-- ==== Sys2Proof/Machine/State.lean ====
section
/-! DEFINITION. Everything the spec gives the machine, as plain data: the registers of `10_state.md`, the crossing's message slots,
the values on the input ports and the environment's schedule; the reasons a step can stop; the state after reset (R49, R199). -/

namespace Sys2Proof.Machine

/-! ## Data types (R18 to R21) -/

/-- The four lanes of a sample, `data_0` to `data_3` (R18). -/
structure Lanes where
  l0 : Word
  l1 : Word
  l2 : Word
  l3 : Word
deriving DecidableEq, Repr

/-- Four lanes of 0. -/
def Lanes.zero : Lanes := ⟨0, 0, 0, 0⟩

/-- Sample4 (R18). -/
structure Sample4 where
  valid : Bool
  lane : Lanes
deriving DecidableEq, Repr

/-- `ZERO_SAMPLE` (R18). -/
def Sample4.zero : Sample4 := ⟨false, Lanes.zero⟩

/-- CtlWord (R19): the control word of one tick. -/
structure CtlWord where
  valid : Bool
  data : BitVec 4
  enable : Bool
  select : Bool
deriving DecidableEq, Repr

/-- `ZERO_CTL` (R19). -/
def CtlWord.zero : CtlWord := ⟨false, 0, false, false⟩

/-- TgtResp (R19, R105): the chain's merged response to the master. -/
structure TgtResp where
  enableReturn : Bool
  selected : Bool
  sample : Sample4
deriving DecidableEq, Repr

/-- TimedValue (R20). -/
structure TimedValue where
  value : Word
  valid : Bool
deriving DecidableEq, Repr

/-- FifoStatus (R21): the backpressure signals. -/
structure FifoStatus where
  level : RingPtr
  highWatermarkReached : Bool
  lowWatermarkReached : Bool
  overflow : Bool
  underflow : Bool
deriving DecidableEq, Repr

/-! ## Configuration structures and requests (R39 to R45) -/

/-- FilterConfig (R39). -/
structure FilterConfig where
  mask : Lanes
  value : Lanes
  acceptUnchanging : Bool
deriving DecidableEq, Repr

/-- ActionDescriptor (R42). -/
structure ActionDescriptor where
  haltCapture : Bool
  recordData : Bool
  recordTime : Bool
  recordInvalidate : Bool
  captureDataSelect : BitVec 2
deriving DecidableEq, Repr

/-- The no-op descriptor (R42). -/
def ActionDescriptor.nop : ActionDescriptor := ⟨false, false, false, false, 0⟩

/-- TriggerConfig (R40). -/
structure TriggerConfig where
  enable : Bool
  clear : Bool
  start : Bool
  stop : Bool
  timerDiv : Byte
  cond : Vector ByteCondition 4
  actionSet : Vector (BitVec 3) 16
  action : Vector ActionDescriptor 8
deriving DecidableEq, Repr

/-- ValueBoundCfg (R43). -/
structure ValueBoundCfg where
  enable : Bool
  base : Word
  shift : BitVec 5
  maskSize : BitVec 6
  maxMin : Bool
deriving DecidableEq, Repr

/-- OffsetBoundCfg (R43). -/
structure OffsetBoundCfg where
  useData1 : Bool
  base : Word
  shift : BitVec 5
  noBkts : Bool
deriving DecidableEq, Repr

/-- TraceConfig (R44). `recordOp` holds a `RINGOP2` code, `aluOp` an `ALUOP4` code. -/
structure TraceConfig where
  recordOp : BitVec 2
  aluOp : BitVec 4
  highWatermark : RingPtr
  lowWatermark : RingPtr
  vb : ValueBoundCfg
  ob : OffsetBoundCfg
deriving DecidableEq, Repr

/-- ServiceRequest (R45). -/
structure ServiceRequest where
  valid : Bool
  op : BitVec 2
  address : RingAddr
  writeFlag : Bool
  aluOp : BitVec 4
  data : Word
  n : Word
deriving DecidableEq, Repr

/-! ## The inputs of a tick (R22, R23) -/

/-- `src[k]` of R22, a function of the 32-bit mux-control value, as a finite table: the sample for each listed value, and the
sample for every other. Every function of a 32-bit value has such a table. -/
structure Source where
  entries : List (Word × Sample4)
  other : Sample4
deriving DecidableEq, Repr

/-- Who drives `ctl_in` in a tick: the modelled master (R109 to R118), or the environment directly with a word of its own (R27
lets a model have either). -/
inductive BusDriver where
  | master
  | direct (w : CtlWord)
deriving DecidableEq, Repr

/-- CaptureInputs (R22), and `xPresent`: that the crossing presents a request of slot `x_req` in this tick if it has not begun to
(R63: "on some later capture tick"; the delay is the environment's, R66); and `masterFollows`: that the master, if its last select timed
out and no op is presented to it, follows the time-out up in this tick (R117, R184; log entry 18). -/
structure CaptureInputs where
  reset : Bool
  bus : BusDriver
  src : List Source
  fcfg : FilterConfig
  tcfg : TriggerConfig
  rcfg : TraceConfig
  svcReq : ServiceRequest
  xPresent : Bool
  masterFollows : Bool
deriving DecidableEq, Repr

/-- The inputs of one readout tick (R23): `ro_reset`, `ro_enable`, and `deliver`: that the crossing delivers a response in slot
`x_resp` in this tick. -/
structure ReadoutInputs where
  reset : Bool
  enable : Bool
  deliver : Bool
deriving DecidableEq, Repr

/-- What the environment presents at the ports of both domains. -/
structure Inputs where
  cap : CaptureInputs
  ro : ReadoutInputs
deriving DecidableEq, Repr

/-- What an entry of the schedule makes happen. -/
inductive Action where
  /-- one operation is presented, at the port of its format -/
  | present (c : Code)
  /-- one capture tick with no operation beyond what the ports carry -/
  | captureTick
  /-- one readout tick -/
  | readoutTick
  /-- both domains are reset together (R197, U8) -/
  | resetBoth
deriving DecidableEq, Repr

/-- One entry of the environment's schedule: what it puts on the ports, and what happens. -/
structure Event where
  inputs : Inputs
  action : Action
deriving DecidableEq, Repr

/-! ## Registers -/

/-- The registers of one chain node (R25). -/
structure Node where
  token : Bool
  selected : Bool
  muxCtl : Word
  nibIdx : BitVec 4
deriving DecidableEq, Repr

/-- A node after reset (R49). -/
def Node.reset : Node := ⟨false, false, 0, 0⟩

/-- A master op with its operand (R72), or `none`: no op is there. The reserved code 7 is no op. -/
inductive MasterOp where
  | none
  | mopNone
  | selectNone
  | selectAll
  | select (k : Nat)
  | enable
  | writeNibble (d : BitVec 4)
  | clearEnable
deriving DecidableEq, Repr

/-- How far the master is in the op in progress (R112, R113): a register the spec implies and does not name. -/
inductive MasterSeq where
  /-- no op in progress -/
  | idle
  /-- `MOP_SELECT k`: step (2), `CTL_SHIFT 1`, is next -/
  | shiftOne (k : Nat)
  /-- step (3): so many `CTL_SHIFT 0` words are left; with none left step (4) is next -/
  | shiftZeros (left : Nat)
  /-- step (5): `CTL_HOLD` until answered or timed out -/
  | wait
  /-- the last select or enable ended by time-out and the master has not followed it up yet (R117, R184; log entry 18) -/
  | timedOut
deriving DecidableEq, Repr

/-- The registers of the issuing master (R27). -/
structure Master where
  enable : Bool
  count : BitVec 8
  selected : Bool
  completed : Bool
  wd : Nat
  seq : MasterSeq
deriving DecidableEq, Repr

/-- The master after reset (R49). -/
def Master.reset : Master := ⟨false, 0, false, true, 0, .idle⟩

/-- TraceFilter's memory of the last admitted sample (R28). -/
structure FilterState where
  prev : Lanes
  prevValid : Bool
deriving DecidableEq, Repr

/-- The filter after reset (R49). -/
def FilterState.reset : FilterState := ⟨Lanes.zero, false⟩

/-- TriggerState (R30). -/
structure TriggerState where
  enabled : Bool
  clearing : Bool
  running : Bool
deriving DecidableEq, Repr

/-- "Created disabled" (R30, R49). -/
def TriggerState.reset : TriggerState := ⟨false, false, false⟩

/-- TriggerTimer (R31). -/
structure Timer where
  timer : Word
  divCnt : Byte
  recordedValue : TimedValue
  recordedDelta : TimedValue
deriving DecidableEq, Repr

/-- The timer after reset (R49). -/
def Timer.reset : Timer := ⟨0, 0, ⟨0, false⟩, ⟨0, false⟩⟩

/-- The ring store (R32, R50) as a list of (word address, word), addresses strictly rising: the words written since power-up. The
smallest addressable unit is the 32-bit word: "there are no byte addresses" (R51; log entry 1). An address that is not listed holds
no value yet, and reads as the free value `Config.powerUpWord` (U1; log entry 4). -/
abbrev Memory := List (Nat × Word)

/-- The store, the two pointers and `last_push_live` (R32, R33, R35). -/
structure Ring where
  mem : Memory
  wp : RingPtr
  rp : RingPtr
  lastPushLive : Bool
deriving DecidableEq, Repr

/-- `svc_resp` (R37). -/
structure SvcResp where
  ack : Bool
  valid : Bool
  data : Word
deriving DecidableEq, Repr

/-- `svc_resp` after reset (R49). -/
def SvcResp.reset : SvcResp := ⟨false, false, 0⟩

/-- `fifo_status` after reset (R49). -/
def FifoStatus.reset : FifoStatus := ⟨0, false, false, false, false⟩

/-- A response as it crosses to the readout domain and as `ro_out` presents it (R38, R63). -/
structure RoResp where
  valid : Bool
  data : Word
deriving DecidableEq, Repr

/-- The registers of the readout port (R38). -/
structure Readout where
  busy : Bool
  out : RoResp
  strobe : Bool
deriving DecidableEq, Repr

/-- The readout port after a readout tick with `ro_reset = 1` (R49, R197). -/
def Readout.reset : Readout := ⟨false, ⟨false, 0⟩, false⟩

/-- The crossing's two message slots (R63): `req` is `x_req`, `resp` is `x_resp`; `presenting` says that the crossing has begun to
present the request, which it then keeps presenting until it is acknowledged. -/
structure Crossing where
  req : Bool
  presenting : Bool
  resp : Option RoResp
deriving DecidableEq, Repr

/-- Both slots empty (R49). -/
def Crossing.reset : Crossing := ⟨false, false, .none⟩

/-- The two outputs of R46 that are wires and no registers, as the last capture tick drove them (log entry 10). -/
structure Outputs where
  tgt : TgtResp
  chainOut : CtlWord
deriving DecidableEq, Repr

/-- The outputs of a reset tick (R196). -/
def Outputs.reset : Outputs := ⟨⟨false, false, Sample4.zero⟩, CtlWord.zero⟩

/-- A parameter of the implementation that the machine reads and no step changes (R9): `MASTER_TIMEOUT`. -/
structure Params where
  masterTimeout : Nat
deriving DecidableEq, Repr

/-- The machine. The chain length `N` (R9) is the length of `nodes`. The last four fields are the model's own: the parameter, the
counter that makes free values fresh, what the ports carry, and the environment's schedule. -/
structure State where
  nodes : List Node
  master : Master
  filter : FilterState
  vbStored : Word
  trig : TriggerState
  timer : Timer
  ring : Ring
  fifo : FifoStatus
  svcResp : SvcResp
  readout : Readout
  xing : Crossing
  out : Outputs
  params : Params
  free : Nat
  inputs : Inputs
  script : List Event
deriving DecidableEq, Repr

/-- Nothing in this hardware faults: "No operation of the core raises an exception, aborts, traps, stalls or leaves a result
undefined because of an error" (R183); "Nothing in this hardware is `fault`" (`93_implementation_defined.md`). So there is no
fault: nobody raises one, and that is safe. -/
inductive Fault where
deriving DecidableEq, Repr

/-- Why a step gives an input no meaning. Each is an input the spec itself says to `refuse`; all are safe (the model stops where
the hardware goes on in a way the spec does not state). -/
inductive Refusal where
  /-- Raised by an arm of `exec` for an operation that has no meaning yet: none. Safe. -/
  | notModelled (mnemonic : String)
  /-- Raised by the master op code 7: "reserved", "not specified", "refuse" (R72, R86, U5). Safe. -/
  | masterOpReserved
  /-- Raised by a capture tick that grants a service request whose op is `push`: "not specified", "refuse" (R160, R86, U7). Safe. -/
  | servicePush
  /-- Raised by a reset of one clock domain while a readout request is in flight: "outside the spec", "refuse" (R197, U8). Safe. -/
  | resetInFlight
deriving DecidableEq, Repr

/-! ## Reset -/

/-- A ByteCondition with every field 0 (R199). -/
def zeroCondition : ByteCondition := ⟨false, 0, 0, 0, 0⟩

/-- The configuration the register layer should present after its own reset (R199): nothing enabled, every entry the no-op
descriptor, `record_op = push`, `alu_op = write32`. -/
def CaptureInputs.quiet : CaptureInputs where
  reset := false
  bus := .master
  src := []
  fcfg := ⟨Lanes.zero, Lanes.zero, false⟩
  tcfg :=
    { enable := false, clear := false, start := false, stop := false, timerDiv := 0,
      cond := Vector.replicate 4 zeroCondition,
      actionSet := Vector.replicate 16 0,
      action := Vector.replicate 8 ActionDescriptor.nop }
  rcfg :=
    { recordOp := 2, aluOp := 2, highWatermark := 0, lowWatermark := 0,
      vb := ⟨false, 0, 0, 0, false⟩, ob := ⟨false, 0, 0, false⟩ }
  svcReq := ⟨false, 0, 0, false, 0, 0, 0⟩
  xPresent := false
  masterFollows := true

/-- No readout input asserted. -/
def ReadoutInputs.quiet : ReadoutInputs := ⟨false, false, false⟩

/-- The ring after power-up and reset: both pointers 0, nothing written (R49). -/
def Ring.reset : Ring := ⟨[], 0, 0, false⟩

/-- The machine after power-up and reset of both domains, with `n` nodes and the master time-out `timeout` (R49, R199). -/
def State.resetWith (n timeout : Nat) : State where
  nodes := List.replicate n Node.reset
  master := Master.reset
  filter := FilterState.reset
  vbStored := 0
  trig := TriggerState.reset
  timer := Timer.reset
  ring := Ring.reset
  fifo := FifoStatus.reset
  svcResp := SvcResp.reset
  readout := Readout.reset
  xing := Crossing.reset
  out := Outputs.reset
  params := ⟨timeout⟩
  free := 0
  inputs := ⟨CaptureInputs.quiet, ReadoutInputs.quiet⟩
  script := []

/-- The machine right after reset, for the chain length and time-out of Config (log entries 2 and 3). -/
def State.reset : State := State.resetWith Config.chainLengthAtReset Config.masterTimeoutAtReset

end Sys2Proof.Machine
end

