-- ==== Sys2Proof/Machine/Ops.lean ====
section
/-! DEFINITION. The named operations over the ring store and its pointers (`20_memory.md`, `44_ring_buffer.md` sections 2 and 3),
the ALU, and the two resets. There is no exception entry and no return from one: no operation raises anything (R183, R187, R188). -/

namespace Sys2Proof.Machine

/-! ## The store -/

/-- The word at an address if it has been written since power-up. -/
def Memory.lookup : Memory → Nat → Option Word
  | [], _ => .none
  | (k, w) :: m, a => if k = a then some w else Memory.lookup m a

/-- `mem[a]` (R12): the word last written, or for a word never written since power-up an unspecified value (R67, U1). -/
def Memory.read (m : Memory) (a : RingAddr) : Word :=
  (Memory.lookup m a.toNat).getD (Config.powerUpWord a.toNat)

/-- Put a word at an address, keeping the addresses strictly rising. -/
def Memory.insert : Memory → Nat → Word → Memory
  | [], a, v => [(a, v)]
  | (k, w) :: m, a, v =>
    if a < k then (a, v) :: (k, w) :: m
    else if a = k then (a, v) :: m
    else (k, w) :: Memory.insert m a v

/-- `mem[a] <- v` (R12). -/
def Memory.write (m : Memory) (a : RingAddr) (v : Word) : Memory := Memory.insert m a.toNat v

/-- Every address of the list lies in the given range and the addresses rise strictly. -/
def Memory.risingFrom (lo : Nat) : Memory → Bool
  | [] => true
  | (k, _) :: m => decide (lo ≤ k) && (decide (k < 2048) && Memory.risingFrom (k + 1) m)

/-- The canonical form: addresses strictly rising, each an address of the store (R50). An entry is a word that has been written; an
address without one holds no value yet, so no entry equals what an unlisted address holds. -/
def Memory.wf (m : Memory) : Bool := Memory.risingFrom 0 m

/-! ## The ALU (R167 to R176) -/

/-- The operands an ALU op takes beside the word read: its `ALUOP4` code, `v` and `n` (R85). -/
structure AluArgs where
  op : BitVec 4
  v : Word
  n : Word
deriving DecidableEq, Repr

/-- The unsigned minimum (R10 `min_u`). -/
def minU {w : Nat} (a b : BitVec w) : BitVec w := if a.toNat ≤ b.toNat then a else b

/-- The unsigned maximum (R10 `max_u`). -/
def maxU {w : Nat} (a b : BitVec w) : BitVec w := if a.toNat ≤ b.toNat then b else a

/-- The low half of a word, bits 15:0 (R52). -/
def loHalf (w : Word) : Half := w.extractLsb' 0 16

/-- The high half of a word, bits 31:16 (R52). -/
def hiHalf (w : Word) : Half := w.extractLsb' 16 16

/-- R175: the low half keeps the minimum, the high half the maximum. -/
def minMaxHalves (old v : Word) : Word :=
  (maxU (hiHalf old) (hiHalf v) ++ minU (loHalf old) (loHalf v) : BitVec (16 + 16))

/-- R176: the low half counts, the high half sums the low half of `v`; no carry passes between them. -/
def incAddHalves (old v : Word) : Word :=
  ((hiHalf old + loHalf v) ++ (loHalf old + 1) : BitVec (16 + 16))

/-- R167 to R176: the ALU. `reserved` is the free result of the codes 9..15 (U2). -/
def alu (reserved : Word) (a : AluArgs) (old : Word) : Word :=
  match a.op.toNat with
  | 0 => (a.v.extractLsb' 0 8).setWidth 32
  | 1 => (a.v.extractLsb' 0 16).setWidth 32
  | 2 => a.v
  | 3 => old + a.n
  | 4 => old + a.v
  | 5 => minU old a.v
  | 6 => maxU old a.v
  | 7 => minMaxHalves old a.v
  | 8 => incAddHalves old a.v
  | _ => reserved

/-! ## The ring operations (R161 to R165) -/

/-- Occupancy (R34): the pointers' difference modulo 2^12. -/
def Ring.occ (r : Ring) : RingPtr := r.wp - r.rp

/-- The address bits of a pointer (R33). -/
def ptrAddr (p : RingPtr) : RingAddr := p.setWidth 11

/-- What a tick executes on the ring (R160); `retract` carries the record request's op (R165). -/
inductive RingOp where
  | idle
  | access (address : RingAddr) (write : Option AluArgs)
  | resetPtrs
  | push (args : AluArgs)
  | pop
  | retract (recordOp : BitVec 2)
deriving DecidableEq, Repr

/-- R161: an access reads a word, and a write puts the ALU's result of it back. -/
def accessRing (reserved : Word) (address : RingAddr) (write : Option AluArgs) (r : Ring) : Ring :=
  match write with
  | .none => r
  | some args => { r with mem := Memory.write r.mem address (alu reserved args (Memory.read r.mem address)) }

/-- R162. -/
def resetPtrsRing (r : Ring) : Ring := { r with wp := 0, rp := 0, lastPushLive := false }

/-- R163: a push to a full buffer is rejected; otherwise the ALU's result goes to the slot at `wp` and `wp` advances. -/
def pushRing (reserved : Word) (args : AluArgs) (r : Ring) : Ring :=
  if r.occ = 2048 then r
  else
    { mem := Memory.write r.mem (ptrAddr r.wp) (alu reserved args (Memory.read r.mem (ptrAddr r.wp)))
      wp := r.wp + 1
      rp := r.rp
      lastPushLive := true }

/-- R164: a pop from an empty buffer is rejected; the pop that empties the buffer leaves no entry to retract. -/
def popRing (r : Ring) : Ring :=
  if r.occ = 0 then r
  else { r with rp := r.rp + 1, lastPushLive := if r.occ = 1 then false else r.lastPushLive }

/-- R165: the most recent push is taken back if it is still live; in any mode but `push` nothing happens. -/
def retractRing (recordOp : BitVec 2) (r : Ring) : Ring :=
  if recordOp = 2 ∧ r.lastPushLive = true then { r with wp := r.wp - 1, lastPushLive := false } else r

/-- What an operation does to the ring. -/
def runRing (reserved : Word) (op : RingOp) (r : Ring) : Ring :=
  match op with
  | .idle => r
  | .access address write => accessRing reserved address write r
  | .resetPtrs => resetPtrsRing r
  | .push args => pushRing reserved args r
  | .pop => popRing r
  | .retract recordOp => retractRing recordOp r

/-- The address an operation stores a word to, if it stores one (R54). -/
def storeAddress (op : RingOp) (r : Ring) : Option RingAddr :=
  match op with
  | .idle => .none
  | .access address write => if write.isSome then some address else .none
  | .resetPtrs => .none
  | .push _ => if r.occ = 2048 then .none else some (ptrAddr r.wp)
  | .pop => .none
  | .retract _ => .none

/-! ## Reset (R196, R197) -/

/-- A readout request is in flight: the port waits for it, or one of the two slots holds it (U8). -/
def State.inFlight (s : State) : Bool := s.readout.busy || (s.xing.req || s.xing.resp.isSome)

/-- R196: every capture-domain register takes its reset value (R49); the store is not written, the readout registers are the other
domain's. -/
def resetCapture (s : State) : State :=
  { s with
    nodes := s.nodes.map fun _ => Node.reset
    master := Master.reset
    filter := FilterState.reset
    vbStored := 0
    trig := TriggerState.reset
    timer := Timer.reset
    ring := { s.ring with wp := 0, rp := 0, lastPushLive := false }
    fifo := FifoStatus.reset
    svcResp := SvcResp.reset
    xing := Crossing.reset
    out := Outputs.reset }

/-- R197: the readout port's registers take their reset values, and the slots are emptied. -/
def resetReadout (s : State) : State := { s with readout := Readout.reset, xing := Crossing.reset }

/-- U8: "model reset of both domains together, with both slots empty afterwards". -/
def resetBoth (s : State) : State := resetReadout (resetCapture s)

/-! ## Fetching -/

/-- The next entry of the environment's schedule: its inputs go on the ports and it leaves the schedule. With none left the ports
keep what they carry, and a capture tick follows (R88: "every omitted input keeps the value"; log entry 11). -/
def fetch (s : State) : Action × State :=
  match s.script with
  | [] => (.captureTick, s)
  | e :: rest => (e.action, { s with inputs := e.inputs, script := rest })

end Sys2Proof.Machine
end

