-- ==== Sys2Proof/Machine/Operands.lean ====
section
/-! DEFINITION. Where operations take their operands from: lanes and bytes of a sample, the node's nibble field, the requests to the
ring and what they execute (R18, R74, R79, R84, R85, R158 to R160). -/

namespace Sys2Proof.Machine

/-- Lane `i` (R79). -/
def Lanes.lane (l : Lanes) (i : BitVec 2) : Word :=
  match i.toNat with
  | 0 => l.l0
  | 1 => l.l1
  | 2 => l.l2
  | _ => l.l3

/-- Byte `b` of a lane: bits [8b+7:8b] (R18). -/
def laneByte (w : Word) (b : BitVec 2) : Byte := w.extractLsb' (8 * b.toNat) 8

/-- R120: the byte a condition looks at; `reserved` is the free byte of the codes 2 and 3 (U3). -/
def selectByte (reserved : Byte) (l : Lanes) (bc : ByteCondition) : Byte :=
  match bc.conditionSelect.toNat with
  | 0 => laneByte (if bc.byteSelect.getLsbD 2 then l.l1 else l.l0) (bc.byteSelect.extractLsb' 0 2)
  | 1 => laneByte l.l1 (bc.byteSelect.extractLsb' 0 2)
  | _ => reserved

/-- R101: field `idx` of a mux-control register becomes the nibble `d`; the other 28 bits stay. -/
def setNibble (reg : Word) (idx : BitVec 4) (d : BitVec 4) : Word :=
  (reg &&& ~~~((0xF : Word) <<< (4 * idx.toNat))) ||| ((d.setWidth 32 : Word) <<< (4 * idx.toNat))

/-- R22: the sample a source presents for a mux-control value. -/
def Source.at (src : Source) (mux : Word) : Sample4 :=
  match src.entries.find? (fun e => e.1 == mux) with
  | some e => e.2
  | .none => src.other

/-- A source that presents nothing. -/
def Source.none : Source := ⟨[], Sample4.zero⟩

/-- The record request of the write controller (R158). -/
structure RecordRequest where
  valid : Bool
  invalidate : Bool
  op : BitVec 2
  aluOp : BitVec 4
  address : RingAddr
  v : Word
  n : Word
deriving DecidableEq, Repr

/-- What the arbiter grants in a tick (R159). -/
inductive Grant where
  | nothing
  | record (r : RecordRequest)
  | service (q : ServiceRequest)
deriving DecidableEq, Repr

/-- R159: the record request always wins. -/
def arbitrate (r : RecordRequest) (q : ServiceRequest) : Grant :=
  if r.valid then .record r else if q.valid then .service q else .nothing

/-- R160: what a granted request executes; `none` for a service push, which is not specified (U7). -/
def grantedOp (g : Grant) : Option RingOp :=
  match g with
  | .nothing => some .idle
  | .record r =>
    if r.invalidate then some (.retract r.op)
    else if r.op = 2 then some (.push ⟨r.aluOp, r.v, r.n⟩)
    else some (.access r.address (some ⟨r.aluOp, r.v, r.n⟩))
  | .service q =>
    match q.op.toNat with
    | 0 => some (.access q.address (if q.writeFlag then some ⟨q.aluOp, q.data, q.n⟩ else .none))
    | 1 => some .resetPtrs
    | 2 => .none
    | _ => some .pop

/-- R159: whether the granted request is the service request. -/
def Grant.isService (g : Grant) : Bool :=
  match g with
  | .service _ => true
  | .nothing => false
  | .record _ => false

/-- R63: the service request the crossing presents. -/
def crossingPop : ServiceRequest := ⟨true, 3, 0, false, 0, 0, 0⟩

/-- R63: the crossing presents its request from the tick the environment chooses until the tick that acknowledges it. -/
def Crossing.presents (x : Crossing) (xPresent : Bool) : Bool := x.req && (x.presenting || xPresent)

/-- The service request at the port in a tick: the crossing's while it presents one, else the host's (R22, R63; log entry 12). -/
def serviceRequest (x : Crossing) (inp : CaptureInputs) : ServiceRequest :=
  if x.presents inp.xPresent then crossingPop else inp.svcReq

end Sys2Proof.Machine
end

