-- ==== Sys2Proof/Machine/Flags.lean ====
section
/-! DEFINITION. Every flag computation of the core: the trigger state (R135), the gating of actions (R137, R138), FifoStatus (R178)
and the service response (R180). -/

namespace Sys2Proof.Machine

/-- The fired-action wires of a tick (R137, R138). -/
structure Fired where
  halt : Bool
  time : Bool
  inval : Bool
  data : Bool
deriving DecidableEq, Repr

/-- R137: the trigger was running before the tick and nothing in it ends the session. -/
def triggerActive (t : TriggerState) (c : TriggerConfig) : Bool := t.running && (c.enable && (!c.clear && !c.stop))

/-- R138. -/
def fireActions (active : Bool) (d : ActionDescriptor) (valid : Bool) : Fired where
  halt := active && d.haltCapture
  time := active && d.recordTime
  inval := active && d.recordInvalidate
  data := active && (d.recordData && (!d.recordInvalidate && valid))

/-- R135: the joint next-state function of TriggerState. -/
def triggerNext (c : TriggerConfig) (fireHalt : Bool) (t : TriggerState) : TriggerState where
  enabled := c.enable
  clearing := c.clear
  running :=
    if !c.enable || (c.clear || c.stop) then false
    else if fireHalt then false
    else if c.start then true
    else t.running

/-- R178: FifoStatus from the occupancies before and after the tick and the operation executed. -/
def fifoNext (c : TraceConfig) (op : RingOp) (occ occ' : RingPtr) : FifoStatus where
  level := occ'
  highWatermarkReached := decide (occ.toNat < c.highWatermark.toNat) && decide (c.highWatermark.toNat ≤ occ'.toNat)
  lowWatermarkReached := decide (c.lowWatermark.toNat < occ.toNat) && decide (occ'.toNat ≤ c.lowWatermark.toNat)
  overflow :=
    match op with
    | .push _ => decide (occ = 2048)
    | _ => false
  underflow :=
    match op with
    | .pop => decide (occ = 0)
    | _ => false

/-- R180: the response to the service request, from the ring before the tick. -/
def svcNext (ack : Bool) (op : RingOp) (r : Ring) : SvcResp :=
  if ack then
    match op with
    | .access address _ => ⟨true, true, Memory.read r.mem address⟩
    | .pop => if r.occ = 0 then ⟨true, false, 0⟩ else ⟨true, true, Memory.read r.mem (ptrAddr r.rp)⟩
    | _ => ⟨true, false, 0⟩
  else ⟨false, false, 0⟩

end Sys2Proof.Machine
end

