-- ==== Sys2Proof/Machine/Chain.lean ====
section
/-! DEFINITION. The daisy chain of nodes (`40_addressing.md` sections 1 to 4): forwarding, the next state of a node, and the merged
response. -/

namespace Sys2Proof.Machine

/-- R92: a node claims the bus when enable reaches it and it holds the token. -/
def Node.claims (n : Node) (w : CtlWord) : Bool := w.enable && n.token

/-- R96: the word is a `CTL_SHIFT`. -/
def CtlWord.isShift (w : CtlWord) : Bool := !w.enable && (w.valid && decide (w.data = 0))

/-- R93: what a node forwards: nothing if it claims the word, its own token on a shift, the word itself otherwise. -/
def nodeForward (w : CtlWord) (n : Node) : CtlWord :=
  if n.claims w then CtlWord.zero
  else if w.isShift then { w with select := n.token }
  else w

/-- R94: the next state of a node that sees the word `w`. -/
def nodeNext (w : CtlWord) (n : Node) : Node :=
  if w.enable = false then
    { n with
      selected := false
      token := if w.valid && decide (w.data.toNat ≤ 1) then w.select else n.token }
  else if n.token then
    if n.selected = false then { n with selected := true, muxCtl := 0, nibIdx := 0 }
    else if w.valid && decide (n.nibIdx.toNat < 8) then
      { n with muxCtl := setNibble n.muxCtl n.nibIdx w.data, nibIdx := n.nibIdx + 1 }
    else n
  else { n with selected := false }

/-- R91: the whole chain in one tick, node 0 first; each node sees what the one before it forwards. -/
def chainNext (w : CtlWord) : List Node → List Node
  | [] => []
  | n :: ns => nodeNext w n :: chainNext (nodeForward w n) ns

/-- R91: the word that leaves the last node. -/
def chainOut (w : CtlWord) : List Node → CtlWord
  | [] => w
  | n :: ns => chainOut (nodeForward w n) ns

/-- R104: what a node presents: its source's sample for its mux-control value while it is SELECTED. -/
def nodeSample (src : Source) (n : Node) : Sample4 := if n.selected then src.at n.muxCtl else Sample4.zero

/-- The lanes of two samples merged bit by bit (R105). -/
def Lanes.merge (a b : Lanes) : Lanes := ⟨a.l0 ||| b.l0, a.l1 ||| b.l1, a.l2 ||| b.l2, a.l3 ||| b.l3⟩

/-- Two responses merged (R105). -/
def Sample4.merge (a b : Sample4) : Sample4 := ⟨a.valid || b.valid, a.lane.merge b.lane⟩

/-- R105: the merged sample; node k takes the k-th source, and a node with no listed source presents nothing. -/
def chainSample : List Source → List Node → Sample4
  | _, [] => Sample4.zero
  | [], n :: ns => (nodeSample Source.none n).merge (chainSample [] ns)
  | src :: srcs, n :: ns => (nodeSample src n).merge (chainSample srcs ns)

/-- R105: whether any node is SELECTED. -/
def chainSelected (ns : List Node) : Bool := ns.any fun n => n.selected

/-- R105: the merged response of the chain to the master. -/
def chainResponse (w : CtlWord) (srcs : List Source) (ns : List Node) : TgtResp where
  enableReturn := (chainOut w ns).enable
  selected := chainSelected ns
  sample := chainSample srcs ns

end Sys2Proof.Machine
end

