-- ==== Sys2Proof/Machine/Master.lean ====
section
/-! DEFINITION. The issuing master (`40_addressing.md` section 6): the control word it drives in a tick, and its next state. An op
of several words takes one capture tick a word; `Master.seq` says where it stands. -/

namespace Sys2Proof.Machine

/-- `CTL_IDLE`, canonical (R71). -/
def wordIdle : CtlWord := ⟨false, 0, false, false⟩

/-- `CTL_SHIFT s`, canonical (R71). -/
def wordShift (s : Bool) : CtlWord := ⟨true, 0, false, s⟩

/-- `CTL_SELECT_NONE` and `CTL_SELECT_ALL` (R71). -/
def wordBroadcast (all : Bool) : CtlWord := ⟨true, 1, false, all⟩

/-- `CTL_HOLD`, canonical (R71). -/
def wordHold : CtlWord := ⟨false, 0, true, false⟩

/-- `CTL_NIBBLE d`, canonical (R71). -/
def wordNibble (d : BitVec 4) : CtlWord := ⟨true, d, true, false⟩

/-- R109: what the master drives when it has nothing to send. -/
def quietWord (m : Master) : CtlWord := if m.enable then wordHold else wordIdle

/-- The first word of an op (R109 to R115). -/
def firstWord (op : MasterOp) (m : Master) : CtlWord :=
  match op with
  | .none => quietWord m
  | .mopNone => quietWord m
  | .selectNone => wordBroadcast false
  | .selectAll => wordBroadcast true
  | .select _ => wordBroadcast false
  | .enable => wordHold
  | .writeNibble d => if m.enable then wordNibble d else quietWord m
  | .clearEnable => wordIdle

/-- No op is in progress: the last has finished, answered or timed out (R116). -/
def Master.ready (m : Master) : Bool :=
  match m.seq with
  | .idle => true
  | .shiftOne _ => false
  | .shiftZeros _ => false
  | .wait => false
  | .timedOut => true

/-- The op the master has in a tick: the one presented, `MOP_NONE` too. After a time-out, in a tick in which none is presented and it
`follows` the time-out up, it is its own `MOP_SELECT_NONE`, by which "the master drops `enable`" (R184; R117: "the master should follow
it with `MOP_SELECT_NONE`"; R188; log entry 18). -/
def Master.opOf (follows : Bool) (op : MasterOp) (m : Master) : MasterOp :=
  match op, m.seq with
  | .none, .timedOut => if follows then .selectNone else .none
  | op, _ => op

/-- The word the master drives in a tick: the next word of the op in progress, else the first word of the op it has. An op
presented while another is in progress is not taken (log entry 13). -/
def masterWord (op : MasterOp) (m : Master) : CtlWord :=
  match m.seq with
  | .idle => firstWord op m
  | .shiftOne _ => wordShift true
  | .shiftZeros 0 => wordHold
  | .shiftZeros (_ + 1) => wordShift false
  | .wait => wordHold
  | .timedOut => firstWord op m

/-- R114: an 8-bit count that saturates at 255. -/
def countUp (c : BitVec 8) : BitVec 8 := if c.toNat = 255 then c else c + 1

/-- The master after the first word of an op (R109 to R116). -/
def masterStart (op : MasterOp) (m : Master) : Master :=
  match op with
  | .none => m
  | .mopNone => m
  | .selectNone => { m with enable := false, count := 0, completed := true, seq := .idle }
  | .selectAll => { m with enable := false, count := 0, completed := true, seq := .idle }
  | .select k => { m with enable := false, completed := false, seq := .shiftOne k }
  | .enable => { m with enable := true, count := 0, wd := 0, completed := false, seq := .wait }
  | .writeNibble _ => if m.enable then { m with count := countUp m.count, completed := true } else { m with completed := true }
  | .clearEnable => { m with enable := false, completed := true, seq := .idle }

/-- R117: one tick of step (5), given the response of the tick. "A time-out leaves `m_enable = 1`": the drop follows. -/
def masterWait (timeout : Nat) (selected : Bool) (m : Master) : Master :=
  if selected then { m with completed := true, seq := .idle }
  else if m.wd = timeout then { m with completed := true, seq := .timedOut }
  else { m with wd := m.wd + 1 }

/-- The master after a tick in which it drives the bus; `m_selected` is resampled on every tick (R116). -/
def masterDriveNext (timeout : Nat) (op : MasterOp) (selected : Bool) (m : Master) : Master :=
  let m := { m with selected := selected }
  match m.seq with
  | .idle => masterStart op m
  | .shiftOne k => { m with seq := .shiftZeros k }
  | .shiftZeros 0 => { m with enable := true, count := 0, wd := 0, seq := .wait }
  | .shiftZeros (k + 1) => { m with seq := .shiftZeros k }
  | .wait => masterWait timeout selected m
  | .timedOut => masterStart op m

/-- The control word entering node 0 (R22). -/
def busWord (bus : BusDriver) (op : MasterOp) (m : Master) : CtlWord :=
  match bus with
  | .master => masterWord op m
  | .direct w => w

/-- The master after a tick: while the environment drives the bus itself, only `m_selected` is resampled (log entry 14). -/
def masterNext (bus : BusDriver) (timeout : Nat) (op : MasterOp) (selected : Bool) (m : Master) : Master :=
  match bus with
  | .master => masterDriveNext timeout op selected m
  | .direct _ => { m with selected := selected }

end Sys2Proof.Machine
end

