-- ==== Sys2Proof/Machine/Datapath.lean ====
section
/-! DEFINITION. The sample data path (`43_filter_reducers.md`): the filter and the two reducers. -/

namespace Sys2Proof.Machine

/-- The comparison of R152 for one lane. -/
def laneMatches (mask value lane : Word) : Bool := decide (lane &&& mask = value &&& mask)

/-- R152: every lane equals the configured value under its mask. -/
def matchAll (c : FilterConfig) (l : Lanes) : Bool :=
  laneMatches c.mask.l0 c.value.l0 l.l0 && (laneMatches c.mask.l1 c.value.l1 l.l1 &&
    (laneMatches c.mask.l2 c.value.l2 l.l2 && laneMatches c.mask.l3 c.value.l3 l.l3))

/-- R152: whether a lane differs from the remembered one in a bit of its mask. -/
def laneChanged (mask prev lane : Word) : Bool := decide ((lane ^^^ prev) &&& mask ≠ 0)

/-- R152: there is no history, or some lane has changed under its mask. -/
def changedAny (c : FilterConfig) (f : FilterState) (l : Lanes) : Bool :=
  !f.prevValid || (laneChanged c.mask.l0 f.prev.l0 l.l0 || (laneChanged c.mask.l1 f.prev.l1 l.l1 ||
    (laneChanged c.mask.l2 f.prev.l2 l.l2 || laneChanged c.mask.l3 f.prev.l3 l.l3)))

/-- R152: `FILTER_ADMIT`; `accept_unchanging = 1` is the duplicate-suppression mode (R151, conflict C2). -/
def filterAdmits (c : FilterConfig) (f : FilterState) (raw : Sample4) : Bool :=
  raw.valid && (if c.acceptUnchanging then changedAny c f raw.lane else matchAll c raw.lane)

/-- R153: the history is the last admitted sample, in both modes. -/
def filterNext (c : FilterConfig) (raw : Sample4) (f : FilterState) : FilterState :=
  if filterAdmits c f raw then ⟨raw.lane, true⟩ else f

/-- R154: a dropped sample leaves the filter as no sample. -/
def filtered (c : FilterConfig) (f : FilterState) (raw : Sample4) : Sample4 :=
  if filterAdmits c f raw then raw else Sample4.zero

/-- R156: the width of ValueBound's window in bits. -/
def windowWidth (c : ValueBoundCfg) : Nat := min c.maskSize.toNat 32

/-- R156: the lane offset by `base` and shifted. -/
def boundShifted (c : ValueBoundCfg) (lane : Word) : Word := (lane - c.base) >>> c.shift.toNat

/-- R156: the extracted field. -/
def boundField (c : ValueBoundCfg) (lane : Word) : Word :=
  boundShifted c lane &&& BitVec.ofNat 32 (2 ^ windowWidth c - 1)

/-- R156: ValueBound's result: the field if the value fits the window, else its maximum or minimum with the stored reduction. -/
def valueBoundResult (c : ValueBoundCfg) (stored lane : Word) : Word :=
  if boundShifted c lane >>> windowWidth c ≠ 0 then
    if c.maxMin then maxU stored (boundField c lane) else minU stored (boundField c lane)
  else boundField c lane

/-- R156: what ValueBound stores; `enable = 0` zeroes it, an invalid sample leaves it. -/
def valueBoundNext (c : ValueBoundCfg) (fs : Sample4) (stored : Word) : Word :=
  if c.enable then (if fs.valid then valueBoundResult c stored fs.lane.l0 else stored) else 0

/-- R150: the bounded sample. -/
def boundedSample (c : ValueBoundCfg) (stored : Word) (fs : Sample4) : Sample4 :=
  if c.enable && fs.valid then { fs with lane := { fs.lane with l0 := valueBoundResult c stored fs.lane.l0 } } else fs

/-- R157: OffsetBound: the bucket of lane 0 or lane 1, clipped to the store. -/
def offsetBoundResult (c : OffsetBoundCfg) (l : Lanes) : RingAddr :=
  let src := if c.useData1 then l.l1 else l.l0
  let x := src - c.base
  let y := if c.noBkts then x else x >>> c.shift.toNat
  if src.toNat < c.base.toNat then 0
  else if 2048 ≤ y.toNat then 2047
  else y.setWidth 11

end Sys2Proof.Machine
end

