-- ==== Sys2Proof/Machine/Trigger.lean ====
section
/-! DEFINITION. The byte matcher, the action table and the timer (`41_trigger_match.md`, `42_trigger_control.md` section 4), and the
write controller's record request (R158). -/

namespace Sys2Proof.Machine

/-- R121 to R123: one condition on a bounded sample; `reserved` is the free byte of a reserved `condition_select`. -/
def byteMatches (reserved : Byte) (bs : Sample4) (bc : ByteCondition) : Bool :=
  (bc.ignoreValid || bs.valid) && decide (selectByte reserved bs.lane bc &&& bc.mask = bc.pattern &&& bc.mask)

/-- R125: the result of condition `i` in the tick numbered `free`. -/
def conditionResult (free : Nat) (cond : Vector ByteCondition 4) (bs : Sample4) (i : Fin 4) : Bool :=
  byteMatches (Config.reservedSelectedByte free i.val) bs cond[i]

/-- R76, R126: the action vector, condition 0 in bit 0. -/
def actionVector (free : Nat) (cond : Vector ByteCondition 4) (bs : Sample4) : BitVec 4 :=
  BitVec.ofBool (conditionResult free cond bs 3) ++ BitVec.ofBool (conditionResult free cond bs 2) ++
    BitVec.ofBool (conditionResult free cond bs 1) ++ BitVec.ofBool (conditionResult free cond bs 0)

/-- R127: the lookup: the vector indexes the action set, its entry the descriptors. -/
def actionLookupResult (set : Vector (BitVec 3) 16) (action : Vector ActionDescriptor 8) (vec : BitVec 4) : ActionDescriptor :=
  action[(set[vec.toNat]'vec.isLt).toNat]'((set[vec.toNat]'vec.isLt).isLt)

/-- R145: the prescaler has run out. -/
def timerDue (timerDiv : Byte) (t : Timer) : Bool := decide (timerDiv.toNat ≤ t.divCnt.toNat)

/-- R145, R146: the counter and its prescaler. -/
def timerCount (c : TriggerConfig) (t : Timer) : Timer :=
  if c.clear then { t with timer := 0, divCnt := 0 }
  else if timerDue c.timerDiv t then { t with timer := t.timer + 1, divCnt := 0 }
  else { t with divCnt := t.divCnt + 1 }

/-- R148: the capture, from the timer before the tick's increment. -/
def timerRecord (t : Timer) : Timer :=
  { t with
    recordedDelta := ⟨t.timer - t.recordedValue.value, t.recordedValue.valid⟩
    recordedValue := ⟨t.timer, true⟩ }

/-- R147: both valid tags cleared, the values kept. -/
def timerInvalidate (t : Timer) : Timer :=
  { t with
    recordedDelta := { t.recordedDelta with valid := false }
    recordedValue := { t.recordedValue with valid := false } }

/-- R145 to R148: one tick of the timer. -/
def timerNext (c : TriggerConfig) (newSession fireTime : Bool) (t : Timer) : Timer :=
  timerCount c (if c.clear || newSession then timerInvalidate t else if fireTime then timerRecord t else t)

/-- R158: the record request of the tick. -/
def recordRequest (c : TraceConfig) (f : Fired) (d : ActionDescriptor) (bs : Sample4) (ofs : RingAddr) : RecordRequest where
  valid := (decide (c.recordOp = 2) || decide (c.recordOp = 0)) && (f.data || f.inval)
  invalidate := f.inval
  op := c.recordOp
  aluOp := c.aluOp
  address := ofs
  v := bs.lane.lane d.captureDataSelect
  n := 1

end Sys2Proof.Machine
end

