-- ==== Sys2Proof/Machine/Tick.lean ====
section
/-! DEFINITION. One capture tick and one readout tick (R15, R16): every wire of the tick from the registers before it and the inputs,
then all registers together (R11). -/

namespace Sys2Proof.Machine

/-- The op the master has in a tick in which `op` is presented (R109 to R117). -/
def tickOp (op : MasterOp) (inp : CaptureInputs) (s : State) : MasterOp := s.master.opOf inp.masterFollows op

/-- The control word entering node 0 in a tick (R22). -/
def tickCtl (op : MasterOp) (inp : CaptureInputs) (s : State) : CtlWord := busWord inp.bus (tickOp op inp s) s.master

/-- `fs` of R150. -/
def tickFiltered (inp : CaptureInputs) (s : State) : Sample4 := filtered inp.fcfg s.filter (chainSample inp.src s.nodes)

/-- `bs` of R150. -/
def tickBounded (inp : CaptureInputs) (s : State) : Sample4 := boundedSample inp.rcfg.vb s.vbStored (tickFiltered inp s)

/-- `ofs` of R150. -/
def tickOffset (inp : CaptureInputs) (s : State) : RingAddr := offsetBoundResult inp.rcfg.ob (tickFiltered inp s).lane

/-- `vec` of R126. -/
def tickVector (inp : CaptureInputs) (s : State) : BitVec 4 := actionVector s.free inp.tcfg.cond (tickBounded inp s)

/-- `desc` of R127. -/
def tickDescriptor (inp : CaptureInputs) (s : State) : ActionDescriptor :=
  actionLookupResult inp.tcfg.actionSet inp.tcfg.action (tickVector inp s)

/-- The fired actions of the tick (R138). -/
def tickFired (inp : CaptureInputs) (s : State) : Fired :=
  fireActions (triggerActive s.trig inp.tcfg) (tickDescriptor inp s) (tickBounded inp s).valid

/-- The record request of the tick (R158). -/
def tickRecord (inp : CaptureInputs) (s : State) : RecordRequest :=
  recordRequest inp.rcfg (tickFired inp s) (tickDescriptor inp s) (tickBounded inp s) (tickOffset inp s)

/-- What the arbiter grants in the tick (R159). -/
def tickGrant (inp : CaptureInputs) (s : State) : Grant := arbitrate (tickRecord inp s) (serviceRequest s.xing inp)

/-- What the tick executes on the ring (R160); a service push executes nothing here, `captureTick` refuses it. -/
def tickRingOp (inp : CaptureInputs) (s : State) : RingOp := (grantedOp (tickGrant inp s)).getD .idle

/-- R63: the crossing after a capture tick in which the ring answers `resp`: the tick that acknowledges its request empties `x_req`
and fills `x_resp`. -/
def crossingNext (inp : CaptureInputs) (resp : SvcResp) (x : Crossing) : Crossing :=
  if x.presents inp.xPresent then
    if resp.ack then ⟨false, false, some ⟨resp.valid, resp.data⟩⟩ else { x with presenting := true }
  else x

/-- The trigger state after the tick (R135). -/
def tickTrigger (inp : CaptureInputs) (s : State) : TriggerState := triggerNext inp.tcfg (tickFired inp s).halt s.trig

/-- R147: the tick begins a session. -/
def tickNewSession (inp : CaptureInputs) (s : State) : Bool := !s.trig.running && (tickTrigger inp s).running

/-- The ring after the tick. -/
def tickRing (inp : CaptureInputs) (s : State) : Ring := runRing (Config.reservedAluResult s.free) (tickRingOp inp s) s.ring

/-- The service response of the tick (R180). -/
def tickSvcResp (inp : CaptureInputs) (s : State) : SvcResp := svcNext (tickGrant inp s).isService (tickRingOp inp s) s.ring

/-- R11, R16: all capture-domain registers after a tick that is no reset tick. -/
def tickNext (op : MasterOp) (inp : CaptureInputs) (s : State) : State :=
  { s with
    nodes := chainNext (tickCtl op inp s) s.nodes
    master := masterNext inp.bus s.params.masterTimeout (tickOp op inp s) (chainSelected s.nodes) s.master
    filter := filterNext inp.fcfg (chainSample inp.src s.nodes) s.filter
    vbStored := valueBoundNext inp.rcfg.vb (tickFiltered inp s) s.vbStored
    trig := tickTrigger inp s
    timer := timerNext inp.tcfg (tickNewSession inp s) (tickFired inp s).time s.timer
    ring := tickRing inp s
    fifo := fifoNext inp.rcfg (tickRingOp inp s) s.ring.occ (tickRing inp s).occ
    svcResp := tickSvcResp inp s
    xing := crossingNext inp (tickSvcResp inp s) s.xing
    out := ⟨chainResponse (tickCtl op inp s) inp.src s.nodes, chainOut (tickCtl op inp s) s.nodes⟩
    free := s.free + 1 }

/-- U7: the tick grants a service request whose op is `push`. -/
def grantsServicePush (inp : CaptureInputs) (s : State) : Bool := (grantedOp (tickGrant inp s)).isNone

/-- R16: one capture tick, with the master op presented in it. It stops only where the spec says to refuse the input: a granted
service push (U7), and a reset while a readout request is in flight (U8). -/
def captureTick (op : MasterOp) (inp : CaptureInputs) (s : State) : Host.Outcome State Fault Refusal :=
  if inp.reset then
    if s.inFlight then .refused .resetInFlight else .next (resetCapture s)
  else if grantsServicePush inp s then .refused .servicePush
  else .next (tickNext op inp s)

/-- R63, R65: a readout tick that accepts a request: a pulse while busy is ignored. -/
def readoutAccepts (inp : ReadoutInputs) (s : State) : Bool := inp.enable && !s.readout.busy

/-- R63: the readout registers and the slots after a readout tick that is no reset tick: the delivery of a response, and the
acceptance of a request. -/
def readoutNext (inp : ReadoutInputs) (s : State) : State :=
  let accepted := readoutAccepts inp s
  match s.xing.resp, inp.deliver with
  | some resp, true =>
    { s with
      readout := ⟨accepted, resp, true⟩
      xing := { s.xing with req := s.xing.req || accepted, resp := .none } }
  | _, _ =>
    { s with
      readout := { s.readout with busy := s.readout.busy || accepted, strobe := false }
      xing := { s.xing with req := s.xing.req || accepted } }

/-- R15, R63, R197: one readout tick. -/
def readoutTick (inp : ReadoutInputs) (s : State) : Host.Outcome State Fault Refusal :=
  if inp.reset then
    if s.inFlight then .refused .resetInFlight else .next (resetReadout s)
  else .next (readoutNext inp s)

end Sys2Proof.Machine
end

