-- ==== Sys2Proof/Machine/Ctl.lean ====
section
/-! DEFINITION. The meanings of the control words (format CTL7): one capture tick with the word on the bus (`40_addressing.md` sections 2
and 3). -/

namespace Sys2Proof.Machine

/-- The tick's inputs with the environment driving the word `w` onto the control bus (R22, R27). -/
def busInputs (w : CtlWord) (s : State) : CaptureInputs := { s.inputs.cap with bus := .direct w }

/-- A capture tick in which the environment drives the word `w` onto the control bus. -/
def driveWord (w : CtlWord) (s : State) : Host.Outcome State Fault Refusal :=
  captureTick .none (busInputs w s) s

/-- `CTL_IDLE` (R95, R99). -/
def execCtlIdle (data : BitVec 4) (select : Bool) (s : State) : Host.Outcome State Fault Refusal := driveWord ⟨false, data, false, select⟩ s

/-- `CTL_SHIFT` (R96). -/
def execCtlShift (b : Bool) (s : State) : Host.Outcome State Fault Refusal := driveWord ⟨true, 0, false, b⟩ s

/-- `CTL_SELECT_NONE` (R97). -/
def execCtlSelectNone (s : State) : Host.Outcome State Fault Refusal := driveWord ⟨true, 1, false, false⟩ s

/-- `CTL_SELECT_ALL` (R97). -/
def execCtlSelectAll (s : State) : Host.Outcome State Fault Refusal := driveWord ⟨true, 1, false, true⟩ s

/-- `CTL_RSVD_2`: "it behaves as `CTL_IDLE`" (R98). -/
def execCtlRsvd2 (select : Bool) (s : State) : Host.Outcome State Fault Refusal := driveWord ⟨true, 2, false, select⟩ s

/-- `CTL_RSVD_3`: "it behaves as `CTL_IDLE`" (R98). -/
def execCtlRsvd3 (select : Bool) (s : State) : Host.Outcome State Fault Refusal := driveWord ⟨true, 3, false, select⟩ s

/-- `CTL_RSVD_4`: "it behaves as `CTL_IDLE`" (R98). -/
def execCtlRsvd4 (select : Bool) (s : State) : Host.Outcome State Fault Refusal := driveWord ⟨true, 4, false, select⟩ s

/-- `CTL_RSVD_5`: "it behaves as `CTL_IDLE`" (R98). -/
def execCtlRsvd5 (select : Bool) (s : State) : Host.Outcome State Fault Refusal := driveWord ⟨true, 5, false, select⟩ s

/-- `CTL_RSVD_6`: "it behaves as `CTL_IDLE`" (R98). -/
def execCtlRsvd6 (select : Bool) (s : State) : Host.Outcome State Fault Refusal := driveWord ⟨true, 6, false, select⟩ s

/-- `CTL_RSVD_7`: "it behaves as `CTL_IDLE`" (R98). -/
def execCtlRsvd7 (select : Bool) (s : State) : Host.Outcome State Fault Refusal := driveWord ⟨true, 7, false, select⟩ s

/-- `CTL_RSVD_8`: "it behaves as `CTL_IDLE`" (R98). -/
def execCtlRsvd8 (select : Bool) (s : State) : Host.Outcome State Fault Refusal := driveWord ⟨true, 8, false, select⟩ s

/-- `CTL_RSVD_9`: "it behaves as `CTL_IDLE`" (R98). -/
def execCtlRsvd9 (select : Bool) (s : State) : Host.Outcome State Fault Refusal := driveWord ⟨true, 9, false, select⟩ s

/-- `CTL_RSVD_10`: "it behaves as `CTL_IDLE`" (R98). -/
def execCtlRsvd10 (select : Bool) (s : State) : Host.Outcome State Fault Refusal := driveWord ⟨true, 10, false, select⟩ s

/-- `CTL_RSVD_11`: "it behaves as `CTL_IDLE`" (R98). -/
def execCtlRsvd11 (select : Bool) (s : State) : Host.Outcome State Fault Refusal := driveWord ⟨true, 11, false, select⟩ s

/-- `CTL_RSVD_12`: "it behaves as `CTL_IDLE`" (R98). -/
def execCtlRsvd12 (select : Bool) (s : State) : Host.Outcome State Fault Refusal := driveWord ⟨true, 12, false, select⟩ s

/-- `CTL_RSVD_13`: "it behaves as `CTL_IDLE`" (R98). -/
def execCtlRsvd13 (select : Bool) (s : State) : Host.Outcome State Fault Refusal := driveWord ⟨true, 13, false, select⟩ s

/-- `CTL_RSVD_14`: "it behaves as `CTL_IDLE`" (R98). -/
def execCtlRsvd14 (select : Bool) (s : State) : Host.Outcome State Fault Refusal := driveWord ⟨true, 14, false, select⟩ s

/-- `CTL_RSVD_15`: "it behaves as `CTL_IDLE`" (R98). -/
def execCtlRsvd15 (select : Bool) (s : State) : Host.Outcome State Fault Refusal := driveWord ⟨true, 15, false, select⟩ s

/-- `CTL_HOLD` (R100, R102, R103). -/
def execCtlHold (data : BitVec 4) (select : Bool) (s : State) : Host.Outcome State Fault Refusal := driveWord ⟨false, data, true, select⟩ s

/-- `CTL_NIBBLE` (R100, R101, R103). -/
def execCtlNibble (d : BitVec 4) (select : Bool) (s : State) : Host.Outcome State Fault Refusal := driveWord ⟨true, d, true, select⟩ s

end Sys2Proof.Machine
end

