-- ==== Sys2Proof/Machine/Mop.lean ====
section
/-! DEFINITION. The meanings of the master ops (format MOP): the capture tick in which the op is presented to the master
(`40_addressing.md` section 6). The words after the first are emitted by the ticks that follow. -/

namespace Sys2Proof.Machine

/-- The tick's inputs with the master driving the bus. -/
def masterInputs (s : State) : CaptureInputs := { s.inputs.cap with bus := .master }

/-- A capture tick in which the master drives the bus and the op is presented to it. -/
def presentMasterOp (op : MasterOp) (s : State) : Host.Outcome State Fault Refusal :=
  captureTick op (masterInputs s) s

/-- `MOP_NONE` (R109, R116): the word goes by `m_enable`, after a time-out too. -/
def execMopNone (s : State) : Host.Outcome State Fault Refusal := presentMasterOp .mopNone s

/-- `MOP_SELECT_NONE` (R110, R116). -/
def execMopSelectNone (s : State) : Host.Outcome State Fault Refusal := presentMasterOp .selectNone s

/-- `MOP_SELECT_ALL` (R111, R116). -/
def execMopSelectAll (s : State) : Host.Outcome State Fault Refusal := presentMasterOp .selectAll s

/-- `MOP_SELECT` (R112, R116, R117). -/
def execMopSelect (k : Nat) (s : State) : Host.Outcome State Fault Refusal := presentMasterOp (.select k) s

/-- `MOP_ENABLE` (R113, R116, R117). -/
def execMopEnable (s : State) : Host.Outcome State Fault Refusal := presentMasterOp .enable s

/-- `MOP_WRITE_NIBBLE` (R114, R116). -/
def execMopWriteNibble (d : BitVec 4) (s : State) : Host.Outcome State Fault Refusal := presentMasterOp (.writeNibble d) s

/-- `MOP_CLEAR_ENABLE` (R115, R116). -/
def execMopClearEnable (s : State) : Host.Outcome State Fault Refusal := presentMasterOp .clearEnable s

/-- `MOP_RSVD_7`: reserved, "not specified", "refuse" (R72, R86, U5): nothing says what word the master emits. -/
def execMopRsvd7 (_s : State) : Host.Outcome State Fault Refusal := .refused .masterOpReserved

end Sys2Proof.Machine
end

