-- ==== Sys2Proof/Machine/Treq.lean ====
section
/-! DEFINITION. The meanings of the trigger request words (format TREQ4): one capture tick with the four request bits at the port
(`42_trigger_control.md` section 1). -/

namespace Sys2Proof.Machine

/-- The tick's inputs with these four request bits at the port (R80). -/
def requestInputs (enable clear start stop : Bool) (s : State) : CaptureInputs :=
  { s.inputs.cap with
    tcfg := { s.inputs.cap.tcfg with enable := enable, clear := clear, start := start, stop := stop } }

/-- A capture tick with these four request bits at the port. -/
def presentTriggerRequest (enable clear start stop : Bool) (s : State) : Host.Outcome State Fault Refusal :=
  captureTick .none (requestInputs enable clear start stop s) s

/-- `TRIG_ENABLE` (R131, R135): the level high, with the other request bits as given. -/
def execTrigEnable (clear start stop : Bool) (s : State) : Host.Outcome State Fault Refusal :=
  presentTriggerRequest true clear start stop s

/-- `TRIG_ENABLE` with its level low and no request beside it (R80: the word 0; R131, R135): the session ends. -/
def execTrigEnableLow (s : State) : Host.Outcome State Fault Refusal := presentTriggerRequest false false false false s

/-- `TRIG_CLEAR` without `enable` (R132, R135). -/
def execTrigClear (start stop : Bool) (s : State) : Host.Outcome State Fault Refusal := presentTriggerRequest false true start stop s

/-- `TRIG_START` without `enable` and `clear` (R133, R135). -/
def execTrigStart (stop : Bool) (s : State) : Host.Outcome State Fault Refusal := presentTriggerRequest false false true stop s

/-- `TRIG_STOP` alone (R134, R135). -/
def execTrigStop (s : State) : Host.Outcome State Fault Refusal := presentTriggerRequest false false false true s

end Sys2Proof.Machine
end

