-- ==== Sys2Proof/Machine/Act.lean ====
section
/-! DEFINITION. The meanings of the action descriptors (format ACT6): one capture tick in which the descriptor is the one looked up
(`42_trigger_control.md` sections 2 and 3). -/

namespace Sys2Proof.Machine

/-- The tick's inputs with every one of the eight descriptors equal to `d`: the lookup resolves to `d`, whatever the action vector
(R127, R130; log entry 15). -/
def descriptorInputs (d : ActionDescriptor) (s : State) : CaptureInputs :=
  { s.inputs.cap with tcfg := { s.inputs.cap.tcfg with action := Vector.replicate 8 d } }

/-- A capture tick whose action lookup resolves to the descriptor `d`. -/
def presentDescriptor (d : ActionDescriptor) (s : State) : Host.Outcome State Fault Refusal :=
  captureTick .none (descriptorInputs d s) s

/-- `ACT_NOP` (R143). -/
def execActNop (select : BitVec 2) (s : State) : Host.Outcome State Fault Refusal := presentDescriptor ⟨false, false, false, false, select⟩ s

/-- `ACT_HALT` (R139, R143). -/
def execActHalt (data time inval : Bool) (select : BitVec 2) (s : State) : Host.Outcome State Fault Refusal :=
  presentDescriptor ⟨true, data, time, inval, select⟩ s

/-- `ACT_RECORD_DATA` (R140, R143). -/
def execActRecordData (time inval : Bool) (select : BitVec 2) (s : State) : Host.Outcome State Fault Refusal :=
  presentDescriptor ⟨false, true, time, inval, select⟩ s

/-- `ACT_RECORD_TIME` (R141, R143). -/
def execActRecordTime (inval : Bool) (select : BitVec 2) (s : State) : Host.Outcome State Fault Refusal :=
  presentDescriptor ⟨false, false, true, inval, select⟩ s

/-- `ACT_RECORD_INVALIDATE` (R142, R143). -/
def execActRecordInvalidate (select : BitVec 2) (s : State) : Host.Outcome State Fault Refusal := presentDescriptor ⟨false, false, false, true, select⟩ s

end Sys2Proof.Machine
end

