-- ==== Sys2Proof/Machine/Match.lean ====
section
/-! DEFINITION. The meanings of the byte sources, the byte match and the action lookup (formats CSEL2, BC22, ASET48): one capture tick
with the condition or the action set in the configuration (`41_trigger_match.md`). -/

namespace Sys2Proof.Machine

/-- The tick's inputs with the ByteCondition `bc` as condition `slot` (R125; log entry 8). -/
def conditionInputs (slot : BitVec 2) (bc : ByteCondition) (s : State) : CaptureInputs :=
  { s.inputs.cap with tcfg := { s.inputs.cap.tcfg with cond := s.inputs.cap.tcfg.cond.set slot.toNat bc slot.isLt } }

/-- A capture tick with the ByteCondition `bc` as condition `slot`. -/
def presentCondition (slot : BitVec 2) (bc : ByteCondition) (s : State) : Host.Outcome State Fault Refusal :=
  captureTick .none (conditionInputs slot bc s) s

/-- The configured condition `slot` with another `condition_select`. -/
def conditionWithSelect (slot : BitVec 2) (code : BitVec 2) (s : State) : ByteCondition :=
  { s.inputs.cap.tcfg.cond[slot.toNat]'slot.isLt with conditionSelect := code }

/-- `CSEL_LANE` (R120). -/
def execCselLane (slot : BitVec 2) (s : State) : Host.Outcome State Fault Refusal := presentCondition slot (conditionWithSelect slot 0 s) s

/-- `CSEL_DATA_1` (R120). -/
def execCselData1 (slot : BitVec 2) (s : State) : Host.Outcome State Fault Refusal := presentCondition slot (conditionWithSelect slot 1 s) s

/-- `CSEL_RSVD_2`: the byte compared is a free value (R75, R120, U3; log entry 6). -/
def execCselRsvd2 (slot : BitVec 2) (s : State) : Host.Outcome State Fault Refusal := presentCondition slot (conditionWithSelect slot 2 s) s

/-- `CSEL_RSVD_3`: the byte compared is a free value (R75, R120, U3; log entry 6). -/
def execCselRsvd3 (slot : BitVec 2) (s : State) : Host.Outcome State Fault Refusal := presentCondition slot (conditionWithSelect slot 3 s) s

/-- `BYTE_MATCH` (R123). -/
def execByteMatch (slot : BitVec 2) (bc : ByteCondition) (s : State) : Host.Outcome State Fault Refusal := presentCondition slot bc s

/-- The tick's inputs with this action set. -/
def actionSetInputs (entries : Vector (BitVec 3) 16) (s : State) : CaptureInputs :=
  { s.inputs.cap with tcfg := { s.inputs.cap.tcfg with actionSet := entries } }

/-- `ACTION_LOOKUP` (R127). -/
def execActionLookup (entries : Vector (BitVec 3) 16) (s : State) : Host.Outcome State Fault Refusal :=
  captureTick .none (actionSetInputs entries s) s

end Sys2Proof.Machine
end

