-- ==== Sys2Proof/Machine/RingFamily.lean ====
section
/-! DEFINITION. The meanings of the addressing ops, the retract and the ALU ops (formats RINGOP2, RECFLAG, ALUOP4): one capture tick
with the op at the request that carries it (`44_ring_buffer.md`). -/

namespace Sys2Proof.Machine

/-- The tick's inputs with an addressing op at one of the two requests (R81): as the service request (then valid; its other fields
are those at the port), or as the op a recorded sample uses. -/
def ringOpInputs (code : BitVec 2) (port : ReqPort) (s : State) : CaptureInputs :=
  match port with
  | .service => { s.inputs.cap with svcReq := { s.inputs.cap.svcReq with valid := true, op := code } }
  | .record => { s.inputs.cap with rcfg := { s.inputs.cap.rcfg with recordOp := code } }

/-- A capture tick with an addressing op at one of the two requests. -/
def presentRingOp (code : BitVec 2) (port : ReqPort) (s : State) : Host.Outcome State Fault Refusal :=
  captureTick .none (ringOpInputs code port s) s

/-- `access` (R161). -/
def execAccess (port : ReqPort) (s : State) : Host.Outcome State Fault Refusal := presentRingOp 0 port s

/-- `reset_ptrs` (R162); as `record_op` nothing is recorded (R158, U6). -/
def execResetPtrs (port : ReqPort) (s : State) : Host.Outcome State Fault Refusal := presentRingOp 1 port s

/-- `push` (R163); as a service request that is granted it is not specified (U7). -/
def execPush (port : ReqPort) (s : State) : Host.Outcome State Fault Refusal := presentRingOp 2 port s

/-- `pop` (R164); as `record_op` nothing is recorded (R158, U6). -/
def execPop (port : ReqPort) (s : State) : Host.Outcome State Fault Refusal := presentRingOp 3 port s

/-- The tick's inputs with each of the eight descriptors changed by `f`: the lookup resolves to the configured descriptor so changed
(log entry 15). -/
def changedDescriptorInputs (f : ActionDescriptor → ActionDescriptor) (s : State) : CaptureInputs :=
  { s.inputs.cap with
    tcfg := { s.inputs.cap.tcfg with action := Vector.ofFn fun i : Fin 8 => f s.inputs.cap.tcfg.action[i] } }

/-- A descriptor with `record_invalidate` set. -/
def ActionDescriptor.invalidating (d : ActionDescriptor) : ActionDescriptor := { d with recordInvalidate := true }

/-- `retract` (R165): the record request of the tick carries `invalidate` if the trigger is active (R142). -/
def execRetract (s : State) : Host.Outcome State Fault Refusal :=
  captureTick .none (changedDescriptorInputs ActionDescriptor.invalidating s) s

/-- The tick's inputs with an ALU op at both requests: the one store write of the tick uses it (R159, R167). -/
def aluInputs (code : BitVec 4) (s : State) : CaptureInputs :=
  { s.inputs.cap with
    rcfg := { s.inputs.cap.rcfg with aluOp := code }
    svcReq := { s.inputs.cap.svcReq with aluOp := code } }

/-- A capture tick with an ALU op at both requests. -/
def presentAluOp (code : BitVec 4) (s : State) : Host.Outcome State Fault Refusal :=
  captureTick .none (aluInputs code s) s

/-- `write8` (R168). -/
def execWrite8 (s : State) : Host.Outcome State Fault Refusal := presentAluOp 0 s

/-- `write16` (R169). -/
def execWrite16 (s : State) : Host.Outcome State Fault Refusal := presentAluOp 1 s

/-- `write32` (R170). -/
def execWrite32 (s : State) : Host.Outcome State Fault Refusal := presentAluOp 2 s

/-- `inc32` (R171). -/
def execInc32 (s : State) : Host.Outcome State Fault Refusal := presentAluOp 3 s

/-- `sum32` (R172). -/
def execSum32 (s : State) : Host.Outcome State Fault Refusal := presentAluOp 4 s

/-- `min32` (R173). -/
def execMin32 (s : State) : Host.Outcome State Fault Refusal := presentAluOp 5 s

/-- `max32` (R174). -/
def execMax32 (s : State) : Host.Outcome State Fault Refusal := presentAluOp 6 s

/-- `min_max16` (R175). -/
def execMinMax16 (s : State) : Host.Outcome State Fault Refusal := presentAluOp 7 s

/-- `inc16_add16` (R176). -/
def execInc16Add16 (s : State) : Host.Outcome State Fault Refusal := presentAluOp 8 s

/-- `ALU_RSVD_9`: the result is a free value (R167, U2; log entry 5). -/
def execAluRsvd9 (s : State) : Host.Outcome State Fault Refusal := presentAluOp 9 s

/-- `ALU_RSVD_10`: the result is a free value (R167, U2; log entry 5). -/
def execAluRsvd10 (s : State) : Host.Outcome State Fault Refusal := presentAluOp 10 s

/-- `ALU_RSVD_11`: the result is a free value (R167, U2; log entry 5). -/
def execAluRsvd11 (s : State) : Host.Outcome State Fault Refusal := presentAluOp 11 s

/-- `ALU_RSVD_12`: the result is a free value (R167, U2; log entry 5). -/
def execAluRsvd12 (s : State) : Host.Outcome State Fault Refusal := presentAluOp 12 s

/-- `ALU_RSVD_13`: the result is a free value (R167, U2; log entry 5). -/
def execAluRsvd13 (s : State) : Host.Outcome State Fault Refusal := presentAluOp 13 s

/-- `ALU_RSVD_14`: the result is a free value (R167, U2; log entry 5). -/
def execAluRsvd14 (s : State) : Host.Outcome State Fault Refusal := presentAluOp 14 s

/-- `ALU_RSVD_15`: the result is a free value (R167, U2; log entry 5). -/
def execAluRsvd15 (s : State) : Host.Outcome State Fault Refusal := presentAluOp 15 s

end Sys2Proof.Machine
end

