-- ==== Sys2Proof/Machine/CfgFamily.lean ====
section
/-! DEFINITION. The meanings of the operations that only configuration fields steer (pseudo-format CFG): the filter modes, the two
reducers, the timer and its capture, and the readout request. -/

namespace Sys2Proof.Machine

/-- The tick's inputs with this filter mode (R151). -/
def filterModeInputs (acceptUnchanging : Bool) (s : State) : CaptureInputs :=
  { s.inputs.cap with fcfg := { s.inputs.cap.fcfg with acceptUnchanging := acceptUnchanging } }

/-- A capture tick with this filter mode. -/
def presentFilterMode (acceptUnchanging : Bool) (s : State) : Host.Outcome State Fault Refusal :=
  captureTick .none (filterModeInputs acceptUnchanging s) s

/-- `FILTER_ADMIT.match` (R152). -/
def execFilterMatch (s : State) : Host.Outcome State Fault Refusal := presentFilterMode false s

/-- `FILTER_ADMIT.change` (R152). -/
def execFilterChange (s : State) : Host.Outcome State Fault Refusal := presentFilterMode true s

/-- The tick's inputs with ValueBound enabled, keeping the maximum or the minimum. -/
def valueBoundInputs (maxMin : Bool) (s : State) : CaptureInputs :=
  { s.inputs.cap with
    rcfg := { s.inputs.cap.rcfg with vb := { s.inputs.cap.rcfg.vb with enable := true, maxMin := maxMin } } }

/-- `VALUE_BOUND` (R156). -/
def execValueBound (maxMin : Bool) (s : State) : Host.Outcome State Fault Refusal :=
  captureTick .none (valueBoundInputs maxMin s) s

/-- The tick's inputs with OffsetBound reading this lane, with or without buckets. -/
def offsetBoundInputs (useData1 noBkts : Bool) (s : State) : CaptureInputs :=
  { s.inputs.cap with
    rcfg := { s.inputs.cap.rcfg with ob := { s.inputs.cap.rcfg.ob with useData1 := useData1, noBkts := noBkts } } }

/-- `OFFSET_BOUND` (R157). -/
def execOffsetBound (useData1 noBkts : Bool) (s : State) : Host.Outcome State Fault Refusal :=
  captureTick .none (offsetBoundInputs useData1 noBkts s) s

/-- The tick's inputs with this division rate. -/
def timerDivInputs (timerDiv : Byte) (s : State) : CaptureInputs :=
  { s.inputs.cap with tcfg := { s.inputs.cap.tcfg with timerDiv := timerDiv } }

/-- `TIMER_TICK` (R145). -/
def execTimerTick (timerDiv : Byte) (s : State) : Host.Outcome State Fault Refusal :=
  captureTick .none (timerDivInputs timerDiv s) s

/-- A descriptor with `record_time` set. -/
def ActionDescriptor.timing (d : ActionDescriptor) : ActionDescriptor := { d with recordTime := true }

/-- `TIMER_CAPTURE` (R148): `fire_time` is 1 in the tick if the trigger is active (R141). -/
def execTimerCapture (s : State) : Host.Outcome State Fault Refusal :=
  captureTick .none (changedDescriptorInputs ActionDescriptor.timing s) s

/-- `RO_REQUEST` (R63): a readout tick with `ro_enable` at 1. -/
def execRoRequest (s : State) : Host.Outcome State Fault Refusal := readoutTick { s.inputs.ro with enable := true } s

end Sys2Proof.Machine
end

