-- ==== Sys2Proof/Machine/Dispatch.lean ====
section
/-! DEFINITION. One arm per operation of the opcode table: each is one direct call of the operation's meaning. -/

namespace Sys2Proof.Machine

def exec (i : Instr) (s : State) : Host.Outcome State Fault Refusal :=
  match i with
  | .ctlIdle data select => Sys2Proof.Machine.execCtlIdle data select s
  | .ctlShift b => Sys2Proof.Machine.execCtlShift b s
  | .ctlSelectNone => Sys2Proof.Machine.execCtlSelectNone s
  | .ctlSelectAll => Sys2Proof.Machine.execCtlSelectAll s
  | .ctlRsvd2 select => Sys2Proof.Machine.execCtlRsvd2 select s
  | .ctlRsvd3 select => Sys2Proof.Machine.execCtlRsvd3 select s
  | .ctlRsvd4 select => Sys2Proof.Machine.execCtlRsvd4 select s
  | .ctlRsvd5 select => Sys2Proof.Machine.execCtlRsvd5 select s
  | .ctlRsvd6 select => Sys2Proof.Machine.execCtlRsvd6 select s
  | .ctlRsvd7 select => Sys2Proof.Machine.execCtlRsvd7 select s
  | .ctlRsvd8 select => Sys2Proof.Machine.execCtlRsvd8 select s
  | .ctlRsvd9 select => Sys2Proof.Machine.execCtlRsvd9 select s
  | .ctlRsvd10 select => Sys2Proof.Machine.execCtlRsvd10 select s
  | .ctlRsvd11 select => Sys2Proof.Machine.execCtlRsvd11 select s
  | .ctlRsvd12 select => Sys2Proof.Machine.execCtlRsvd12 select s
  | .ctlRsvd13 select => Sys2Proof.Machine.execCtlRsvd13 select s
  | .ctlRsvd14 select => Sys2Proof.Machine.execCtlRsvd14 select s
  | .ctlRsvd15 select => Sys2Proof.Machine.execCtlRsvd15 select s
  | .ctlHold data select => Sys2Proof.Machine.execCtlHold data select s
  | .ctlNibble d select => Sys2Proof.Machine.execCtlNibble d select s
  | .mopNone => Sys2Proof.Machine.execMopNone s
  | .mopSelectNone => Sys2Proof.Machine.execMopSelectNone s
  | .mopSelectAll => Sys2Proof.Machine.execMopSelectAll s
  | .mopSelect k => Sys2Proof.Machine.execMopSelect k s
  | .mopEnable => Sys2Proof.Machine.execMopEnable s
  | .mopWriteNibble d => Sys2Proof.Machine.execMopWriteNibble d s
  | .mopClearEnable => Sys2Proof.Machine.execMopClearEnable s
  | .mopRsvd7 => Sys2Proof.Machine.execMopRsvd7 s
  | .trigEnable clear start stop => Sys2Proof.Machine.execTrigEnable clear start stop s
  | .trigEnableLow => Sys2Proof.Machine.execTrigEnableLow s
  | .trigClear start stop => Sys2Proof.Machine.execTrigClear start stop s
  | .trigStart stop => Sys2Proof.Machine.execTrigStart stop s
  | .trigStop => Sys2Proof.Machine.execTrigStop s
  | .actNop select => Sys2Proof.Machine.execActNop select s
  | .actHalt data time inval select => Sys2Proof.Machine.execActHalt data time inval select s
  | .actRecordData time inval select => Sys2Proof.Machine.execActRecordData time inval select s
  | .actRecordTime inval select => Sys2Proof.Machine.execActRecordTime inval select s
  | .actRecordInvalidate select => Sys2Proof.Machine.execActRecordInvalidate select s
  | .cselLane slot => Sys2Proof.Machine.execCselLane slot s
  | .cselData1 slot => Sys2Proof.Machine.execCselData1 slot s
  | .cselRsvd2 slot => Sys2Proof.Machine.execCselRsvd2 slot s
  | .cselRsvd3 slot => Sys2Proof.Machine.execCselRsvd3 slot s
  | .byteMatch slot bc => Sys2Proof.Machine.execByteMatch slot bc s
  | .actionLookup entries => Sys2Proof.Machine.execActionLookup entries s
  | .access port => Sys2Proof.Machine.execAccess port s
  | .resetPtrs port => Sys2Proof.Machine.execResetPtrs port s
  | .push port => Sys2Proof.Machine.execPush port s
  | .pop port => Sys2Proof.Machine.execPop port s
  | .retract => Sys2Proof.Machine.execRetract s
  | .write8 => Sys2Proof.Machine.execWrite8 s
  | .write16 => Sys2Proof.Machine.execWrite16 s
  | .write32 => Sys2Proof.Machine.execWrite32 s
  | .inc32 => Sys2Proof.Machine.execInc32 s
  | .sum32 => Sys2Proof.Machine.execSum32 s
  | .min32 => Sys2Proof.Machine.execMin32 s
  | .max32 => Sys2Proof.Machine.execMax32 s
  | .minMax16 => Sys2Proof.Machine.execMinMax16 s
  | .inc16Add16 => Sys2Proof.Machine.execInc16Add16 s
  | .aluRsvd9 => Sys2Proof.Machine.execAluRsvd9 s
  | .aluRsvd10 => Sys2Proof.Machine.execAluRsvd10 s
  | .aluRsvd11 => Sys2Proof.Machine.execAluRsvd11 s
  | .aluRsvd12 => Sys2Proof.Machine.execAluRsvd12 s
  | .aluRsvd13 => Sys2Proof.Machine.execAluRsvd13 s
  | .aluRsvd14 => Sys2Proof.Machine.execAluRsvd14 s
  | .aluRsvd15 => Sys2Proof.Machine.execAluRsvd15 s
  | .filterMatch => Sys2Proof.Machine.execFilterMatch s
  | .filterChange => Sys2Proof.Machine.execFilterChange s
  | .valueBound maxMin => Sys2Proof.Machine.execValueBound maxMin s
  | .offsetBound useData1 noBkts => Sys2Proof.Machine.execOffsetBound useData1 noBkts s
  | .timerTick timerDiv => Sys2Proof.Machine.execTimerTick timerDiv s
  | .timerCapture => Sys2Proof.Machine.execTimerCapture s
  | .roRequest => Sys2Proof.Machine.execRoRequest s

end Sys2Proof.Machine
end

