-- ==== Sys2Proof/Machine/Step.lean ====
section
/-! DEFINITION. One step of the machine: the next entry of the environment's schedule. There is no program counter and nothing in
the core fetches (R17): what an entry presents is the operation of the tick. -/

namespace Sys2Proof.Machine

/-- The operation a code stands for is executed. A number that is no word of its format can stand on no port: nothing is presented
then, and the tick is that of the ports (R16: the tick is total; log entry 27). -/
def present (c : Code) (s : State) : Host.Outcome State Fault Refusal :=
  match decode c with
  | .ok i => exec i s
  | .error _ => captureTick .none s.inputs.cap s

/-- One step: the next entry's inputs go on the ports, and its tick or operation happens (R15, R22, R66). -/
def step (s : State) : Host.Outcome State Fault Refusal :=
  match fetch s with
  | (.present c, t) => present c t
  | (.captureTick, t) => captureTick .none t.inputs.cap t
  | (.readoutTick, t) => readoutTick t.inputs.ro t
  | (.resetBoth, t) => .next (resetBoth t)

/-- The state with the operation of a bare table word scheduled next, under the inputs the ports carry (log entry 11). -/
def State.withFetchWord (s : State) (nbits w : Nat) : State :=
  { s with script := ⟨s.inputs, .present (tableCode nbits w)⟩ :: s.script }

end Sys2Proof.Machine
end

