-- ==== Sys2Proof/Safety.lean ====
section
/-! DEFINITION. What counts as a good state and a defined tick, in the terms the statements use: the invariants of the spec (R34,
R106, R107, R116, R63, R166, R178, R180), the ticks whose inputs the spec gives a meaning, and what a statement compares. -/

namespace Sys2Proof.Machine

/-! ## Invariants -/

/-- R106, R107, R25: a SELECTED node holds the token, at most one node is SELECTED, and a nibble index is 0..8. -/
def chainOk (ns : List Node) : Bool :=
  ns.all (fun n => (!n.selected || n.token) && decide (n.nibIdx.toNat ≤ 8)) && decide (ns.countP (fun n => n.selected) ≤ 1)

/-- R34, R166: occupancy at most 2048; a live last push is in the buffer; and the store is in its canonical form. -/
def ringOk (r : Ring) : Bool :=
  Memory.wf r.mem && (decide (r.occ.toNat ≤ 2048) && (!r.lastPushLive || decide (1 ≤ r.occ.toNat)))

/-- R116, R117: `m_completed` says that no op is in progress, and the watchdog does not pass `MASTER_TIMEOUT`. -/
def masterOk (timeout : Nat) (m : Master) : Bool :=
  decide (m.completed = m.ready) && decide (m.wd ≤ timeout)

/-- R63: the port is busy exactly while one of the two slots holds its request, and only a request in `x_req` is presented. -/
def handshakeOk (r : Readout) (x : Crossing) : Bool :=
  decide (r.busy = (x.req || x.resp.isSome)) && (!(x.req && x.resp.isSome) && (!x.presenting || x.req))

/-- R180: "When `ack = 0` the other two fields are 0", and without `valid` the data is 0. -/
def responseOk (r : SvcResp) : Bool := (r.ack || !r.valid) && (r.valid || decide (r.data = 0))

/-- The invariant of the machine. -/
structure Inv (s : State) : Prop where
  /-- N ≥ 1 (R9) -/
  nonempty : s.nodes ≠ []
  chain : chainOk s.nodes = true
  master : masterOk s.params.masterTimeout s.master = true
  ring : ringOk s.ring = true
  /-- R178: after a tick `level` is the occupancy -/
  level : s.fifo.level = s.ring.occ
  response : responseOk s.svcResp = true
  handshake : handshakeOk s.readout s.xing = true

/-! ## Ticks the spec gives a meaning -/

/-- The ports carry no reset and no service push (U7): a capture tick then has the effect the rules give. -/
def PortsDefined (s : State) : Prop :=
  s.inputs.cap.reset = false ∧ (s.inputs.cap.svcReq.valid = true → s.inputs.cap.svcReq.op ≠ 2)

/-- In the tick that led from `s` to `t` the word `w` entered node 0: the nodes took their next states under it, and what the chain left
of it is on the outputs (R91, R105). -/
def Drives (w : CtlWord) (s t : State) : Prop :=
  t.nodes = chainNext w s.nodes ∧ t.out.chainOut = chainOut w s.nodes ∧ t.out.tgt.enableReturn = (chainOut w s.nodes).enable

/-- A tick in which the host's service request is the one granted (R159): there is no record request, and the crossing presents
none of its own. -/
def ServiceFree (inp : CaptureInputs) (s : State) : Prop :=
  (tickRecord inp s).valid = false ∧ s.xing.presents inp.xPresent = false

/-! ## What statements compare -/

/-- A node after a word that deselects it and does nothing else (R99). -/
def Node.deselected (n : Node) : Node := { n with selected := false }

/-- What no capture tick changes: the readout port's registers, the parameter, the ports and the schedule, and the number of
nodes. -/
def KeepsSurroundings (s t : State) : Prop :=
  t.readout = s.readout ∧ t.params = s.params ∧ t.inputs = s.inputs ∧ t.script = s.script ∧ t.nodes.length = s.nodes.length

/-- Two states agree on every register outside the chain and the master. -/
def AgreeOutsideChain (t u : State) : Prop :=
  t.filter = u.filter ∧ t.vbStored = u.vbStored ∧ t.trig = u.trig ∧ t.timer = u.timer ∧ t.ring = u.ring ∧ t.fifo = u.fifo ∧
    t.svcResp = u.svcResp ∧ t.readout = u.readout ∧ t.xing = u.xing ∧ t.params = u.params ∧ t.inputs = u.inputs ∧
    t.script = u.script

/-- Two states agree on the chain, the master, the filter and ValueBound: everything before the byte matcher. -/
def SameSampleSide (t u : State) : Prop :=
  t.nodes = u.nodes ∧ t.master = u.master ∧ t.out = u.out ∧ t.filter = u.filter ∧ t.vbStored = u.vbStored

/-- Every word of the store is as before, but for the one at the address given, if any. -/
def KeepsStoreBut (a : Option RingAddr) (m m' : Memory) : Prop :=
  ∀ b : RingAddr, a ≠ some b → Memory.read m' b = Memory.read m b

/-- Two states agree on everything but the words of the store. -/
def SameButStore (t u : State) : Prop := t = { u with ring := { u.ring with mem := t.ring.mem } }

/-- The operation stores a word at `a`, with the ALU operands `args` (R161, R163). -/
def StoresWith (op : RingOp) (r : Ring) (a : RingAddr) (args : AluArgs) : Prop :=
  op = .access a (some args) ∨ op = .push args ∧ r.occ ≠ 2048 ∧ a = ptrAddr r.wp

/-- The words that deselect and do nothing else: `CTL_IDLE` (R95) and the fourteen reserved words (R98). -/
def deselectingWord : Instr → Option CtlWord
  | .ctlIdle data select => some ⟨false, data, false, select⟩
  | .ctlRsvd2 select => some ⟨true, 2, false, select⟩
  | .ctlRsvd3 select => some ⟨true, 3, false, select⟩
  | .ctlRsvd4 select => some ⟨true, 4, false, select⟩
  | .ctlRsvd5 select => some ⟨true, 5, false, select⟩
  | .ctlRsvd6 select => some ⟨true, 6, false, select⟩
  | .ctlRsvd7 select => some ⟨true, 7, false, select⟩
  | .ctlRsvd8 select => some ⟨true, 8, false, select⟩
  | .ctlRsvd9 select => some ⟨true, 9, false, select⟩
  | .ctlRsvd10 select => some ⟨true, 10, false, select⟩
  | .ctlRsvd11 select => some ⟨true, 11, false, select⟩
  | .ctlRsvd12 select => some ⟨true, 12, false, select⟩
  | .ctlRsvd13 select => some ⟨true, 13, false, select⟩
  | .ctlRsvd14 select => some ⟨true, 14, false, select⟩
  | .ctlRsvd15 select => some ⟨true, 15, false, select⟩
  | _ => .none

/-- The reserved ALU op codes (R82). -/
def reservedAluCode : Instr → Option (BitVec 4)
  | .aluRsvd9 => some 9
  | .aluRsvd10 => some 10
  | .aluRsvd11 => some 11
  | .aluRsvd12 => some 12
  | .aluRsvd13 => some 13
  | .aluRsvd14 => some 14
  | .aluRsvd15 => some 15
  | _ => .none

/-- The operation as a capture tick: the master op and the inputs its meaning presents; `none` for the two operations that are not
one (the reserved master op and the readout request). -/
def captureInputsOf (i : Instr) (s : State) : Option (MasterOp × CaptureInputs) :=
  match i with
  | .ctlIdle data select => some (.none, busInputs ⟨false, data, false, select⟩ s)
  | .ctlShift b => some (.none, busInputs ⟨true, 0, false, b⟩ s)
  | .ctlSelectNone => some (.none, busInputs ⟨true, 1, false, false⟩ s)
  | .ctlSelectAll => some (.none, busInputs ⟨true, 1, false, true⟩ s)
  | .ctlRsvd2 select => some (.none, busInputs ⟨true, 2, false, select⟩ s)
  | .ctlRsvd3 select => some (.none, busInputs ⟨true, 3, false, select⟩ s)
  | .ctlRsvd4 select => some (.none, busInputs ⟨true, 4, false, select⟩ s)
  | .ctlRsvd5 select => some (.none, busInputs ⟨true, 5, false, select⟩ s)
  | .ctlRsvd6 select => some (.none, busInputs ⟨true, 6, false, select⟩ s)
  | .ctlRsvd7 select => some (.none, busInputs ⟨true, 7, false, select⟩ s)
  | .ctlRsvd8 select => some (.none, busInputs ⟨true, 8, false, select⟩ s)
  | .ctlRsvd9 select => some (.none, busInputs ⟨true, 9, false, select⟩ s)
  | .ctlRsvd10 select => some (.none, busInputs ⟨true, 10, false, select⟩ s)
  | .ctlRsvd11 select => some (.none, busInputs ⟨true, 11, false, select⟩ s)
  | .ctlRsvd12 select => some (.none, busInputs ⟨true, 12, false, select⟩ s)
  | .ctlRsvd13 select => some (.none, busInputs ⟨true, 13, false, select⟩ s)
  | .ctlRsvd14 select => some (.none, busInputs ⟨true, 14, false, select⟩ s)
  | .ctlRsvd15 select => some (.none, busInputs ⟨true, 15, false, select⟩ s)
  | .ctlHold data select => some (.none, busInputs ⟨false, data, true, select⟩ s)
  | .ctlNibble d select => some (.none, busInputs ⟨true, d, true, select⟩ s)
  | .mopNone => some (.mopNone, masterInputs s)
  | .mopSelectNone => some (.selectNone, masterInputs s)
  | .mopSelectAll => some (.selectAll, masterInputs s)
  | .mopSelect k => some (.select k, masterInputs s)
  | .mopEnable => some (.enable, masterInputs s)
  | .mopWriteNibble d => some (.writeNibble d, masterInputs s)
  | .mopClearEnable => some (.clearEnable, masterInputs s)
  | .mopRsvd7 => .none
  | .trigEnable clear start stop => some (.none, requestInputs true clear start stop s)
  | .trigEnableLow => some (.none, requestInputs false false false false s)
  | .trigClear start stop => some (.none, requestInputs false true start stop s)
  | .trigStart stop => some (.none, requestInputs false false true stop s)
  | .trigStop => some (.none, requestInputs false false false true s)
  | .actNop select => some (.none, descriptorInputs ⟨false, false, false, false, select⟩ s)
  | .actHalt data time inval select => some (.none, descriptorInputs ⟨true, data, time, inval, select⟩ s)
  | .actRecordData time inval select => some (.none, descriptorInputs ⟨false, true, time, inval, select⟩ s)
  | .actRecordTime inval select => some (.none, descriptorInputs ⟨false, false, true, inval, select⟩ s)
  | .actRecordInvalidate select => some (.none, descriptorInputs ⟨false, false, false, true, select⟩ s)
  | .cselLane slot => some (.none, conditionInputs slot (conditionWithSelect slot 0 s) s)
  | .cselData1 slot => some (.none, conditionInputs slot (conditionWithSelect slot 1 s) s)
  | .cselRsvd2 slot => some (.none, conditionInputs slot (conditionWithSelect slot 2 s) s)
  | .cselRsvd3 slot => some (.none, conditionInputs slot (conditionWithSelect slot 3 s) s)
  | .byteMatch slot bc => some (.none, conditionInputs slot bc s)
  | .actionLookup entries => some (.none, actionSetInputs entries s)
  | .access port => some (.none, ringOpInputs 0 port s)
  | .resetPtrs port => some (.none, ringOpInputs 1 port s)
  | .push port => some (.none, ringOpInputs 2 port s)
  | .pop port => some (.none, ringOpInputs 3 port s)
  | .retract => some (.none, changedDescriptorInputs ActionDescriptor.invalidating s)
  | .write8 => some (.none, aluInputs 0 s)
  | .write16 => some (.none, aluInputs 1 s)
  | .write32 => some (.none, aluInputs 2 s)
  | .inc32 => some (.none, aluInputs 3 s)
  | .sum32 => some (.none, aluInputs 4 s)
  | .min32 => some (.none, aluInputs 5 s)
  | .max32 => some (.none, aluInputs 6 s)
  | .minMax16 => some (.none, aluInputs 7 s)
  | .inc16Add16 => some (.none, aluInputs 8 s)
  | .aluRsvd9 => some (.none, aluInputs 9 s)
  | .aluRsvd10 => some (.none, aluInputs 10 s)
  | .aluRsvd11 => some (.none, aluInputs 11 s)
  | .aluRsvd12 => some (.none, aluInputs 12 s)
  | .aluRsvd13 => some (.none, aluInputs 13 s)
  | .aluRsvd14 => some (.none, aluInputs 14 s)
  | .aluRsvd15 => some (.none, aluInputs 15 s)
  | .filterMatch => some (.none, filterModeInputs false s)
  | .filterChange => some (.none, filterModeInputs true s)
  | .valueBound maxMin => some (.none, valueBoundInputs maxMin s)
  | .offsetBound useData1 noBkts => some (.none, offsetBoundInputs useData1 noBkts s)
  | .timerTick timerDiv => some (.none, timerDivInputs timerDiv s)
  | .timerCapture => some (.none, changedDescriptorInputs ActionDescriptor.timing s)
  | .roRequest => .none

/-- Pop `n` times: the words read and the ring left. -/
def drain : Nat → Ring → List Word × Ring
  | 0, r => ([], r)
  | n + 1, r =>
    let (ws, r') := drain n (popRing r)
    (Memory.read r.mem (ptrAddr r.rp) :: ws, r')

/-- Push words one after another with `write32`. -/
def pushAll (reserved : Word) (ws : List Word) (r : Ring) : Ring :=
  ws.foldl (fun r w => pushRing reserved ⟨2, w, 1⟩ r) r

end Sys2Proof.Machine
end

