-- ==== Sys2Proof/Certificates/Slice0/Obligations.lean ====
section
/-! DEFINITION. The statements about the machine, for the provers. Each docstring names the rules it formalises. A statement about one
operation concludes that `exec` answers a next state and says what that state holds; the rest of the tick is what the same ports
give without the operation. -/

open Sys2Proof Sys2Proof.Machine

/-! ## Encoding -/

/-- R69 to R82: every operation, with every operand at every value, is what the decoder reads from its encoding. -/
def Obligations.DecodeEncodeIsIdentity : Prop := ∀ i : Instr, decode (encode i) = .ok i

/-- R69 to R82: a number that decodes has no other operation's encoding and no bit the decoder drops: encoding gives it back. -/
def Obligations.EncodeDecodeIsIdentity : Prop := ∀ (c : Code) (i : Instr), decode c = .ok i → encode i = c

/-- R70, R71, R72, R73, R78, R80, R81, R82: a few words of the spec's tables decode to the operations they stand for. (That bit 2 of a
`RINGOP2` number is 0 for the service request, and bits 23:22 of a `BC22` number are the condition's number, is the model's choice, log
entry 8; that the `TREQ4` word 0 is `TRIG_ENABLE` with the level low, log entry 17.) -/
def Obligations.WordsOfTheSpecDecode : Prop :=
  decode ⟨.ctl7, 0x41⟩ = .ok (.ctlShift true) ∧ decode ⟨.ctl7, 0x45⟩ = .ok .ctlSelectAll ∧
    decode ⟨.ctl7, 0x6A⟩ = .ok (.ctlNibble 0xA false) ∧ decode ⟨.mop, 2⟩ = .ok .mopSelectAll ∧
    decode ⟨.bc22, 0x1BBFF5⟩ = .ok (.byteMatch 0 ⟨true, 2, 0xFF, 0xBB, 1⟩) ∧
    decode ⟨.treq4, 5⟩ = .ok (.trigEnable false true false) ∧ decode ⟨.treq4, 0⟩ = .ok .trigEnableLow ∧
    decode ⟨.act6, 0x36⟩ = .ok (.actRecordData true false 3) ∧ decode ⟨.ringop2, 3⟩ = .ok (.pop .service) ∧
    decode ⟨.aluop4, 8⟩ = .ok .inc16Add16

/-- R129 with R77: packing then unpacking is the identity on all action sets, and unpacking then packing on all 48-bit numbers. -/
def Obligations.ActionSetPackingRoundTrips : Prop :=
  (∀ e : Vector (BitVec 3) 16, unpackActionSet (packActionSet e) = e) ∧ ∀ w : BitVec 48, packActionSet (unpackActionSet w) = w

/-! ## The step -/

/-- R3, R15, R17: a step executes the operation presented to the core in its tick, or is a tick of one domain. How operations and ticks
come to follow one another is the model's choice: a schedule of the environment, whose next entry puts its inputs on the ports, leaves the
schedule and happens (log entry 11), the reset of both domains being an entry of its own (log entry 20). An entry whose number is no word
of its format presents nothing (log entry 27), and with an empty schedule a step is a capture tick of the ports as they are (log entry
11). -/
def Obligations.StepRunsTheScheduledOperation : Prop :=
  ∀ (s : State) (inp : Inputs) (rest : List Event),
    (∀ (c : Code) (i : Instr), s.script = ⟨inp, .present c⟩ :: rest → decode c = .ok i →
      step s = exec i { s with inputs := inp, script := rest }) ∧
    (∀ (c : Code) (e : DecodeError), s.script = ⟨inp, .present c⟩ :: rest → decode c = .error e →
      step s = captureTick .none inp.cap { s with inputs := inp, script := rest }) ∧
    (s.script = ⟨inp, .captureTick⟩ :: rest → step s = captureTick .none inp.cap { s with inputs := inp, script := rest }) ∧
    (s.script = ⟨inp, .readoutTick⟩ :: rest → step s = readoutTick inp.ro { s with inputs := inp, script := rest }) ∧
    (s.script = ⟨inp, .resetBoth⟩ :: rest → step s = .next (resetBoth { s with inputs := inp, script := rest })) ∧
    (s.script = [] → step s = captureTick .none s.inputs.cap s)

/-- R198: in the reset state, for every chain length and time-out, with nothing presented (all inputs zero; or the quiet inputs of R199,
whose record and ALU op are other codes; the bus idle, by the master or driven directly), every tick leaves every register unchanged
except the timer, which counts: after `k` steps the timer has advanced by `k`. (`free` is the model's own counter of ticks.) -/
def Obligations.QuietMachineOnlyCounts : Prop :=
  ∀ (n timeout k : Nat) (bus : BusDriver) (recordOp : BitVec 2) (aluOp : BitVec 4), (bus = .master ∨ bus = .direct CtlWord.zero) →
    let cap : CaptureInputs :=
      { CaptureInputs.quiet with bus := bus, rcfg := { CaptureInputs.quiet.rcfg with recordOp := recordOp, aluOp := aluOp } }
    let s : State := { State.resetWith n timeout with inputs := ⟨cap, ReadoutInputs.quiet⟩ }
    Host.Core.run Sys2Proof.core k s = .next { s with timer := { Timer.reset with timer := BitVec.ofNat 32 k }, free := k }

/-! ## The chain -/

/-- R95, R98, R99: `CTL_IDLE` and the reserved words deselect every node, keep every token, mux-control value and nibble index, leave the
chain unmodified, and change nothing else of what the tick does. (That the modelled master only resamples `m_selected` while the
environment drives the bus, also during an op, is the model's choice, log entry 14.) -/
def Obligations.IdleAndReservedWordsDeselect : Prop :=
  ∀ (s : State) (i : Instr) (w : CtlWord), PortsDefined s → deselectingWord i = some w →
    ∃ t, exec i s = .next t ∧ t.nodes = s.nodes.map Node.deselected ∧ t.out.chainOut = w ∧ t.out.tgt.enableReturn = false ∧
      t.master = { s.master with selected := chainSelected s.nodes } ∧
      AgreeOutsideChain t (tickNext .none s.inputs.cap s) ∧ KeepsSurroundings s t

/-- R96: `CTL_SHIFT` moves every token one node along, `b` entering node 0 and the last node's token leaving on `chain_out`; every node is
deselected and keeps its mux-control value and nibble index. (That the modelled master only resamples `m_selected` while the environment
drives the bus, also during an op, is the model's choice, log entry 14.) -/
def Obligations.ShiftMovesEveryToken : Prop :=
  ∀ (s : State) (b : Bool), PortsDefined s →
    ∃ t, exec (.ctlShift b) s = .next t ∧
      t.nodes.map (fun n => n.token) = (b :: s.nodes.map (fun n => n.token)).dropLast ∧
      t.nodes.map (fun n => (n.selected, n.muxCtl, n.nibIdx)) = s.nodes.map (fun n => (false, n.muxCtl, n.nibIdx)) ∧
      t.out.chainOut = ⟨true, 0, false, (s.nodes.map (fun n => n.token)).getLastD b⟩ ∧
      t.master = { s.master with selected := chainSelected s.nodes } ∧
      AgreeOutsideChain t (tickNext .none s.inputs.cap s) ∧ KeepsSurroundings s t

/-- R97: the broadcasts clear or set every token and deselect every node, and keep mux-control values and nibble indices. (That the
modelled master only resamples `m_selected` while the environment drives the bus, also during an op, is the model's choice, log entry 14.) -/
def Obligations.BroadcastSetsEveryToken : Prop :=
  ∀ (s : State) (i : Instr) (all : Bool), PortsDefined s → i = (if all then .ctlSelectAll else .ctlSelectNone) →
    ∃ t, exec i s = .next t ∧
      t.nodes = s.nodes.map (fun n => { n with token := all, selected := false }) ∧ t.out.chainOut = ⟨true, 1, false, all⟩ ∧
      t.master = { s.master with selected := chainSelected s.nodes } ∧
      AgreeOutsideChain t (tickNext .none s.inputs.cap s) ∧ KeepsSurroundings s t

/-- R100, R93: under `CTL_HOLD` or `CTL_NIBBLE` the first node that holds the token, if UNSELECTED, becomes SELECTED with its mux-control
value and nibble index 0 (a nibble the word carries is discarded); every other node is UNSELECTED and otherwise unchanged, and nothing
leaves the chain. (That the modelled master only resamples `m_selected` while the environment drives the bus, also during an op, is the
model's choice, log entry 14.) -/
def Obligations.EnableSelectsTheFirstTokenHolder : Prop :=
  ∀ (s : State) (i : Instr) (d : BitVec 4) (b : Bool) (before after : List Node) (n : Node), PortsDefined s →
    (i = .ctlHold d b ∨ i = .ctlNibble d b) → s.nodes = before ++ n :: after → (∀ m ∈ before, m.token = false) → n.token = true →
    n.selected = false →
    ∃ t, exec i s = .next t ∧
      t.nodes = before.map Node.deselected ++ { n with selected := true, muxCtl := 0, nibIdx := 0 } :: after.map Node.deselected ∧
      t.out.chainOut = CtlWord.zero ∧ t.out.tgt.enableReturn = false ∧
      t.master = { s.master with selected := chainSelected s.nodes } ∧
      AgreeOutsideChain t (tickNext .none s.inputs.cap s) ∧ KeepsSurroundings s t

/-- R102: `CTL_HOLD` leaves a SELECTED first token holder as it is. (That the modelled master only resamples `m_selected` while the
environment drives the bus, also during an op, is the model's choice, log entry 14.) -/
def Obligations.HoldKeepsTheSelectedNode : Prop :=
  ∀ (s : State) (d : BitVec 4) (b : Bool) (before after : List Node) (n : Node), PortsDefined s →
    s.nodes = before ++ n :: after → (∀ m ∈ before, m.token = false) → n.token = true → n.selected = true →
    ∃ t, exec (.ctlHold d b) s = .next t ∧ t.nodes = before.map Node.deselected ++ n :: after.map Node.deselected ∧
      t.out.chainOut = CtlWord.zero ∧ t.master = { s.master with selected := chainSelected s.nodes } ∧
      AgreeOutsideChain t (tickNext .none s.inputs.cap s) ∧ KeepsSurroundings s t

/-- R101: `CTL_NIBBLE d` at the SELECTED node puts `d` into the field its nibble index names, bit by bit, leaves the other bits and
advances the index; a ninth or later nibble is dropped. (That the modelled master only resamples `m_selected` while the environment drives
the bus, also during an op, is the model's choice, log entry 14.) -/
def Obligations.NibbleFillsTheMuxControl : Prop :=
  ∀ (s : State) (d : BitVec 4) (b : Bool) (before after : List Node) (n : Node), PortsDefined s →
    s.nodes = before ++ n :: after → (∀ m ∈ before, m.token = false) → n.token = true → n.selected = true →
    ∃ t n', exec (.ctlNibble d b) s = .next t ∧ t.nodes = before.map Node.deselected ++ n' :: after.map Node.deselected ∧
      n'.token = true ∧ n'.selected = true ∧
      (n.nibIdx.toNat < 8 → n'.nibIdx = n.nibIdx + 1 ∧
        ∀ j < 32, n'.muxCtl.getLsbD j =
          if 4 * n.nibIdx.toNat ≤ j ∧ j < 4 * n.nibIdx.toNat + 4 then d.getLsbD (j - 4 * n.nibIdx.toNat) else n.muxCtl.getLsbD j) ∧
      (8 ≤ n.nibIdx.toNat → n' = n) ∧
      t.out.chainOut = CtlWord.zero ∧ t.master = { s.master with selected := chainSelected s.nodes } ∧
      AgreeOutsideChain t (tickNext .none s.inputs.cap s) ∧ KeepsSurroundings s t

/-- R103: with no token on the chain a word with enable high passes every node, which it deselects and otherwise leaves, and
`enable_return` is 1. (That the modelled master only resamples `m_selected` while the environment drives the bus, also during an op, is
the model's choice, log entry 14.) -/
def Obligations.UnclaimedEnablePassesThrough : Prop :=
  ∀ (s : State) (d : BitVec 4) (b v : Bool) (i : Instr), PortsDefined s → i = (if v then .ctlNibble d b else .ctlHold d b) →
    (∀ m ∈ s.nodes, m.token = false) →
    ∃ t, exec i s = .next t ∧ t.nodes = s.nodes.map Node.deselected ∧ t.out.chainOut = ⟨v, d, true, b⟩ ∧
      t.out.tgt.enableReturn = true ∧ t.master = { s.master with selected := chainSelected s.nodes } ∧
      AgreeOutsideChain t (tickNext .none s.inputs.cap s) ∧ KeepsSurroundings s t

/-- R104, R105: while one node is SELECTED, the merged response of every capture tick is `selected = 1` and the sample that node's source
gives for its mux-control value; while none is, it is `selected = 0` and `ZERO_SAMPLE`. -/
def Obligations.ResponseIsTheSelectedNodesSample : Prop :=
  ∀ (op : MasterOp) (inp : CaptureInputs) (s t : State), inp.reset = false → captureTick op inp s = .next t →
    (∀ (before after : List Node) (n : Node), s.nodes = before ++ n :: after → n.selected = true →
      (∀ m ∈ before ++ after, m.selected = false) →
      t.out.tgt.selected = true ∧ t.out.tgt.sample = (inp.src.getD before.length Source.none).at n.muxCtl) ∧
    ((∀ m ∈ s.nodes, m.selected = false) → t.out.tgt.selected = false ∧ t.out.tgt.sample = Sample4.zero)

/-- R106, R107: after any capture tick, whatever the state before it and whatever word the bus carried, at most one node is SELECTED and
it holds the token. -/
def Obligations.AtMostOneNodeIsSelectedAfterATick : Prop :=
  ∀ (op : MasterOp) (inp : CaptureInputs) (s t : State), captureTick op inp s = .next t →
    t.nodes.countP (fun n => n.selected) ≤ 1 ∧ ∀ n ∈ t.nodes, n.selected = true → n.token = true

/-! ## The master -/

/-- R109, R110, R111, R115, R116: the one-word master ops, presented while no op is in progress: the word of R71 on the bus and the
registers. `MOP_NONE` goes by `m_enable` in every such state, also after a time-out, and so does a tick in which the master has no op.
(That an op presented then is taken is log entry 13's reading. That the master has an op of its own, `MOP_SELECT_NONE`, in a tick in
which it follows a time-out up, R117, R184 and R188, and that the environment says in which, is log entry 18's.) -/
def Obligations.OneWordMasterOps : Prop :=
  ∀ s : State, PortsDefined s → s.master.ready = true →
    (∀ o, (o = exec .mopNone s ∨ o = captureTick .none s.inputs.cap s ∧ s.inputs.cap.bus = .master ∧
          (s.master.seq = .idle ∨ s.inputs.cap.masterFollows = false)) →
      ∃ t, o = .next t ∧ Drives (if s.master.enable then ⟨false, 0, true, false⟩ else ⟨false, 0, false, false⟩) s t ∧
      t.master = { s.master with selected := chainSelected s.nodes } ∧
      AgreeOutsideChain t (tickNext .none s.inputs.cap s) ∧ KeepsSurroundings s t) ∧
    (∀ o, (o = exec .mopSelectNone s ∨ o = captureTick .none s.inputs.cap s ∧ s.inputs.cap.bus = .master ∧
          s.master.seq = .timedOut ∧ s.inputs.cap.masterFollows = true) →
      ∃ t, o = .next t ∧
      Drives ⟨true, 1, false, false⟩ s t ∧ t.nodes = s.nodes.map (fun n => { n with token := false, selected := false }) ∧
      t.master = { s.master with selected := chainSelected s.nodes, enable := false, count := 0, completed := true, seq := .idle } ∧
      AgreeOutsideChain t (tickNext .none s.inputs.cap s) ∧ KeepsSurroundings s t) ∧
    (∃ t, exec .mopSelectAll s = .next t ∧ Drives ⟨true, 1, false, true⟩ s t ∧
      t.nodes = s.nodes.map (fun n => { n with token := true, selected := false }) ∧
      t.master = { s.master with selected := chainSelected s.nodes, enable := false, count := 0, completed := true, seq := .idle } ∧
      AgreeOutsideChain t (tickNext .none s.inputs.cap s) ∧ KeepsSurroundings s t) ∧
    (∃ t, exec .mopClearEnable s = .next t ∧ Drives ⟨false, 0, false, false⟩ s t ∧ t.nodes = s.nodes.map Node.deselected ∧
      t.master = { s.master with selected := chainSelected s.nodes, enable := false, completed := true, seq := .idle } ∧
      AgreeOutsideChain t (tickNext .none s.inputs.cap s) ∧ KeepsSurroundings s t)

/-- R114: `MOP_WRITE_NIBBLE d`, presented while no op is in progress, puts `CTL_NIBBLE d` on the bus and counts, saturating at 255, while
`m_enable` is 1; otherwise it is not emitted (the bus idles) and completes with the count unchanged. (That it is taken right after a
time-out too, and leaves the drop of `enable` to a later tick, is the model's reading, log entries 13 and 18.) -/
def Obligations.WriteNibbleEmitsAndCounts : Prop :=
  ∀ (s : State) (d : BitVec 4), PortsDefined s → s.master.ready = true →
    ∃ t, exec (.mopWriteNibble d) s = .next t ∧
      Drives (if s.master.enable then ⟨true, d, true, false⟩ else ⟨false, 0, false, false⟩) s t ∧
      (s.master.enable = true → t.master.count.toNat = min (s.master.count.toNat + 1) 255) ∧
      (s.master.enable = false → t.nodes = s.nodes.map Node.deselected ∧ t.master.count = s.master.count) ∧
      t.master = { s.master with selected := chainSelected s.nodes, completed := true, count := t.master.count } ∧
      AgreeOutsideChain t (tickNext .none s.inputs.cap s) ∧ KeepsSurroundings s t

/-- R112, R113, R116: the first words of `MOP_SELECT` and `MOP_ENABLE`, presented while no op is in progress; `m_completed` becomes 0.
(That `m_enable` is 0 from the first word of a select on is the model's reading of R27, log entry 16; that an op presented after a
time-out is taken, log entries 13 and 18.) -/
def Obligations.SelectAndEnableBegin : Prop :=
  ∀ (s : State) (k : Nat), PortsDefined s → s.master.ready = true →
    (∃ t, exec (.mopSelect k) s = .next t ∧ Drives ⟨true, 1, false, false⟩ s t ∧
      t.nodes = s.nodes.map (fun n => { n with token := false, selected := false }) ∧
      t.master = { s.master with selected := chainSelected s.nodes, enable := false, completed := false, seq := .shiftOne k } ∧
      AgreeOutsideChain t (tickNext .none s.inputs.cap s) ∧ KeepsSurroundings s t) ∧
    (∃ t, exec .mopEnable s = .next t ∧ Drives ⟨false, 0, true, false⟩ s t ∧
      t.master = { enable := true, count := 0, selected := chainSelected s.nodes, completed := false, wd := 0, seq := .wait } ∧
      AgreeOutsideChain t (tickNext .none s.inputs.cap s) ∧ KeepsSurroundings s t)

/-- R112 step (5), R117: while the master waits, each tick drives `CTL_HOLD`; the op completes in the tick that samples `tgt.selected = 1`
or finds the watchdog at `MASTER_TIMEOUT`, and the watchdog counts otherwise. (That the tick of the time-out itself leaves `m_enable` as
it is, as R117 says, and the drop of R184 comes with a later word, is the model's reading, log entry 18.) -/
def Obligations.WaitingMasterEndsAnsweredOrTimedOut : Prop :=
  ∀ s : State, PortsDefined s → s.inputs.cap.bus = .master → s.master.seq = .wait →
    ∃ t, captureTick .none s.inputs.cap s = .next t ∧ Drives ⟨false, 0, true, false⟩ s t ∧
      t.master.selected = chainSelected s.nodes ∧ t.master.enable = s.master.enable ∧ t.master.count = s.master.count ∧
      (if chainSelected s.nodes = true then t.master.completed = true ∧ t.master.seq = .idle ∧ t.master.wd = s.master.wd
      else if s.master.wd = s.params.masterTimeout then
        t.master.completed = true ∧ t.master.seq = .timedOut ∧ t.master.wd = s.master.wd
      else t.master.completed = s.master.completed ∧ t.master.seq = .wait ∧ t.master.wd = s.master.wd + 1) ∧
      KeepsSurroundings s t

/-- R112, R108: `MOP_SELECT k`, from any state with no op in progress, takes the chain in k + 3 ticks to the state in which exactly node k
is SELECTED, with mux-control value 0, if there is a node k, and to the state in which none is SELECTED otherwise. (No op is in progress
after an answer or a time-out: the model's reading, log entries 13 and 18.) -/
def Obligations.SelectKSelectsExactlyNodeK : Prop :=
  ∀ (s : State) (k : Nat) (inp : Inputs) (rest : List Event), s.master.ready = true →
    s.script = ⟨inp, .present ⟨.mop, 3 + 8 * k⟩⟩ :: (List.replicate (k + 2) ⟨inp, .captureTick⟩ ++ rest) →
    inp.cap.reset = false → inp.cap.bus = .master → inp.cap.svcReq.valid = false →
    ∃ t, Host.Core.run Sys2Proof.core (k + 3) s = .next t ∧ t.script = rest ∧ t.nodes.length = s.nodes.length ∧
      (∀ j n, t.nodes[j]? = some n → n.selected = decide (j = k) ∧ n.token = decide (j = k) ∧ (j = k → n.muxCtl = 0 ∧ n.nibIdx = 0)) ∧
      t.master.enable = true ∧ t.master.seq = .wait ∧ t.master.completed = false

/-- R86, R72 (U5): the reserved master op is given no meaning. -/
def Obligations.ReservedMasterOpIsRefused : Prop := ∀ s : State, exec .mopRsvd7 s = .refused .masterOpReserved

/-! ## The trigger controller -/

/-- R131 to R136: the joint effect of the four request bits of a `TREQ4` word, for all 16 words, on TriggerState, with `halt_capture`
fired in the tick or not: not enabled, `clear` and `stop` force 0, then the halt, then `start`, then hold. -/
def Obligations.RequestWordsSetTheTriggerState : Prop :=
  ∀ (s : State) (i : Instr) (e c st sp : Bool), PortsDefined s →
    (i = .trigEnable c st sp ∧ e = true ∨ i = .trigClear st sp ∧ e = false ∧ c = true ∨
      i = .trigStart sp ∧ e = false ∧ c = false ∧ st = true ∨ i = .trigStop ∧ e = false ∧ c = false ∧ st = false ∧ sp = true ∨
      i = .trigEnableLow ∧ e = false ∧ c = false ∧ st = false ∧ sp = false) →
    ∃ t, exec i s = .next t ∧ t.trig.enabled = e ∧ t.trig.clearing = c ∧
      (e = false ∨ c = true ∨ sp = true → t.trig.running = false) ∧
      (e = true → c = false → sp = false →
        t.trig.running = (!(s.trig.running && (tickDescriptor (requestInputs e c st sp s) s).haltCapture) && (st || s.trig.running))) ∧
      SameSampleSide t (tickNext .none s.inputs.cap s) ∧ KeepsSurroundings s t

/-- R132, R146: a word with `clear` zeroes the timer and its prescaler and clears both valid tags, keeps the two values, and fires no
action: the ring is what the service side alone makes it. -/
def Obligations.ClearZeroesTheTimer : Prop :=
  ∀ (s : State) (i : Instr) (e st sp : Bool), PortsDefined s →
    (i = .trigEnable true st sp ∧ e = true ∨ i = .trigClear st sp ∧ e = false) →
    ∃ t, exec i s = .next t ∧
      t.timer = ⟨0, 0, ⟨s.timer.recordedValue.value, false⟩, ⟨s.timer.recordedDelta.value, false⟩⟩ ∧
      ((serviceRequest s.xing s.inputs.cap).valid = false → t.ring = s.ring) ∧
      SameSampleSide t (tickNext .none s.inputs.cap s) ∧ KeepsSurroundings s t

/-- R133, R147: `start` from `running = 0` begins a session: `running` becomes 1, no action fires in that tick, and the valid tags are
cleared while the values stay. -/
def Obligations.StartBeginsASession : Prop :=
  ∀ s : State, PortsDefined s → s.trig.running = false →
    ∃ t, exec (.trigEnable false true false) s = .next t ∧ t.trig = ⟨true, false, true⟩ ∧
      t.timer.recordedValue = ⟨s.timer.recordedValue.value, false⟩ ∧ t.timer.recordedDelta = ⟨s.timer.recordedDelta.value, false⟩ ∧
      ((serviceRequest s.xing s.inputs.cap).valid = false → t.ring = s.ring) ∧
      SameSampleSide t (tickNext .none s.inputs.cap s) ∧ KeepsSurroundings s t

/-- R139, R143: in an active tick a descriptor with `halt_capture` stops the trigger, and its other flags still act: with `record_time`
the timer and the delta are captured; with `record_data` the sample that causes the halt is recorded, pushed into a buffer with room or
combined at OffsetBound's address; with `record_invalidate` a live last push is taken back. -/
def Obligations.HaltStopsTheTrigger : Prop :=
  ∀ (s : State) (data time inval : Bool) (sel : BitVec 2), PortsDefined s → triggerActive s.trig s.inputs.cap.tcfg = true →
    let v := (tickBounded s.inputs.cap s).lane.lane sel
    ∃ t, exec (.actHalt data time inval sel) s = .next t ∧ t.trig = ⟨true, false, false⟩ ∧
      t.timer.recordedValue = (if time then ⟨s.timer.timer, true⟩ else s.timer.recordedValue) ∧
      t.timer.recordedDelta =
        (if time then ⟨s.timer.timer - s.timer.recordedValue.value, s.timer.recordedValue.valid⟩ else s.timer.recordedDelta) ∧
      (data = true → inval = false → (tickBounded s.inputs.cap s).valid = true → s.inputs.cap.rcfg.aluOp.toNat ≤ 8 →
        (s.inputs.cap.rcfg.recordOp = 2 → s.ring.occ ≠ 2048 → t.ring.wp = s.ring.wp + 1 ∧ t.ring.lastPushLive = true ∧
          Memory.read t.ring.mem (ptrAddr s.ring.wp) =
            alu 0 ⟨s.inputs.cap.rcfg.aluOp, v, 1⟩ (Memory.read s.ring.mem (ptrAddr s.ring.wp))) ∧
        (s.inputs.cap.rcfg.recordOp = 0 → t.ring.wp = s.ring.wp ∧
          Memory.read t.ring.mem (tickOffset s.inputs.cap s) =
            alu 0 ⟨s.inputs.cap.rcfg.aluOp, v, 1⟩ (Memory.read s.ring.mem (tickOffset s.inputs.cap s)))) ∧
      (inval = true → s.inputs.cap.rcfg.recordOp = 2 → s.ring.lastPushLive = true →
        t.ring.wp = s.ring.wp - 1 ∧ t.ring.lastPushLive = false) ∧
      SameSampleSide t (tickNext .none s.inputs.cap s) ∧ KeepsSurroundings s t

/-- R141, R148: in an active tick `record_time` captures the timer of before the tick, and the time since the previous capture, valid only
if that capture was, whatever flags stand beside it; `TIMER_CAPTURE` is the same capture under the configured descriptors. -/
def Obligations.RecordTimeCapturesTheTimer : Prop :=
  ∀ (s : State) (i : Instr) (data inval : Bool) (sel : BitVec 2), PortsDefined s → triggerActive s.trig s.inputs.cap.tcfg = true →
    (i = .actRecordTime inval sel ∨ i = .actRecordData true inval sel ∨ i = .actHalt data true inval sel ∨ i = .timerCapture) →
    ∃ t, exec i s = .next t ∧ t.timer.recordedValue = ⟨s.timer.timer, true⟩ ∧
      t.timer.recordedDelta = ⟨s.timer.timer - s.timer.recordedValue.value, s.timer.recordedValue.valid⟩ ∧
      (t.timer.timer, t.timer.divCnt) =
        (if s.inputs.cap.tcfg.timerDiv.toNat ≤ s.timer.divCnt.toNat then (s.timer.timer + 1, 0) else (s.timer.timer, s.timer.divCnt + 1)) ∧
      SameSampleSide t (tickNext .none s.inputs.cap s) ∧ KeepsSurroundings s t

/-- R140, R163, R178: in an active tick with a valid bounded sample and `record_op = push`, `record_data`, with `halt_capture` or without,
pushes the selected lane: into a buffer with room the ALU's result goes to the slot at `wp`, which advances; a full buffer stays as it is
and `overflow` is reported. Every other word of the store is unchanged. -/
def Obligations.RecordDataPushesTheLane : Prop :=
  ∀ (s : State) (i : Instr) (time : Bool) (sel : BitVec 2), PortsDefined s → triggerActive s.trig s.inputs.cap.tcfg = true →
    (tickBounded s.inputs.cap s).valid = true → s.inputs.cap.rcfg.recordOp = 2 → s.inputs.cap.rcfg.aluOp.toNat ≤ 8 →
    (i = .actRecordData time false sel ∨ i = .actHalt true time false sel) →
    ∃ t, exec i s = .next t ∧
      (s.ring.occ = 2048 → t.ring = s.ring ∧ t.fifo.overflow = true) ∧
      (s.ring.occ ≠ 2048 → t.ring.wp = s.ring.wp + 1 ∧ t.ring.rp = s.ring.rp ∧ t.ring.lastPushLive = true ∧ t.fifo.overflow = false ∧
        Memory.read t.ring.mem (ptrAddr s.ring.wp) =
          alu 0 ⟨s.inputs.cap.rcfg.aluOp, (tickBounded s.inputs.cap s).lane.lane sel, 1⟩ (Memory.read s.ring.mem (ptrAddr s.ring.wp)) ∧
        KeepsStoreBut (some (ptrAddr s.ring.wp)) s.ring.mem t.ring.mem) ∧
      t.svcResp = ⟨false, false, 0⟩ ∧ t.trig.running = decide (i = .actRecordData time false sel) ∧
      SameSampleSide t (tickNext .none s.inputs.cap s) ∧ KeepsSurroundings s t

/-- R140, R158, R161: with `record_op = access` the selected lane of `record_data`, with `halt_capture` or without, is combined into the
word at OffsetBound's address; pointers, level and the overflow flag are untouched, and every other word of the store is unchanged. -/
def Obligations.RecordDataAccumulatesAtTheOffset : Prop :=
  ∀ (s : State) (i : Instr) (time : Bool) (sel : BitVec 2), PortsDefined s → triggerActive s.trig s.inputs.cap.tcfg = true →
    (tickBounded s.inputs.cap s).valid = true → s.inputs.cap.rcfg.recordOp = 0 → s.inputs.cap.rcfg.aluOp.toNat ≤ 8 →
    (i = .actRecordData time false sel ∨ i = .actHalt true time false sel) →
    ∃ t, exec i s = .next t ∧
      t.ring.wp = s.ring.wp ∧ t.ring.rp = s.ring.rp ∧ t.ring.lastPushLive = s.ring.lastPushLive ∧ t.fifo.overflow = false ∧
      Memory.read t.ring.mem (tickOffset s.inputs.cap s) =
        alu 0 ⟨s.inputs.cap.rcfg.aluOp, (tickBounded s.inputs.cap s).lane.lane sel, 1⟩
          (Memory.read s.ring.mem (tickOffset s.inputs.cap s)) ∧
      KeepsStoreBut (some (tickOffset s.inputs.cap s)) s.ring.mem t.ring.mem ∧
      SameSampleSide t (tickNext .none s.inputs.cap s) ∧ KeepsSurroundings s t

/-- R142, R165: in an active tick with `record_op = push`, `record_invalidate`, whatever flags stand beside it, takes the last push back
if it is live, and does nothing to the ring otherwise; with `record_op = access` it does nothing. No word of the store changes. -/
def Obligations.RecordInvalidateRetracts : Prop :=
  ∀ (s : State) (i : Instr) (data time : Bool) (sel : BitVec 2), PortsDefined s → triggerActive s.trig s.inputs.cap.tcfg = true →
    (i = .actRecordInvalidate sel ∨ i = .actRecordTime true sel ∨ i = .actRecordData time true sel ∨ i = .actHalt data time true sel ∨
      i = .retract) → (s.inputs.cap.rcfg.recordOp = 2 ∨ s.inputs.cap.rcfg.recordOp = 0) →
    ∃ t, exec i s = .next t ∧ t.ring.mem = s.ring.mem ∧ t.ring.rp = s.ring.rp ∧
      (if s.inputs.cap.rcfg.recordOp = 2 ∧ s.ring.lastPushLive = true then
        t.ring.wp = s.ring.wp - 1 ∧ t.ring.lastPushLive = false
      else t.ring = s.ring) ∧
      t.svcResp = ⟨false, false, 0⟩ ∧ SameSampleSide t (tickNext .none s.inputs.cap s) ∧ KeepsSurroundings s t

/-- R138, R140, R158 (U6): no descriptor records or retracts anything if `record_op` is neither `push` nor `access`; without
`record_invalidate`, `record_data` records nothing if the bounded sample is invalid, and `record_time` alone never does: without a service
request the ring stays as it is. -/
def Obligations.NothingIsRecordedWithoutASampleOrAMode : Prop :=
  ∀ (s : State) (i : Instr) (data time inval : Bool) (sel : BitVec 2), PortsDefined s →
    (s.inputs.cap.rcfg.recordOp ≠ 2 ∧ s.inputs.cap.rcfg.recordOp ≠ 0 ∧
        (i = .actRecordData time inval sel ∨ i = .actHalt data time inval sel ∨ i = .actRecordTime inval sel ∨
          i = .actRecordInvalidate sel ∨ i = .retract ∨ i = .timerCapture) ∨
      (tickBounded s.inputs.cap s).valid = false ∧ (i = .actRecordData time false sel ∨ i = .actHalt true time false sel) ∨
      i = .actHalt false time false sel ∨ i = .actRecordTime false sel) →
    (serviceRequest s.xing s.inputs.cap).valid = false →
    ∃ t, exec i s = .next t ∧ t.ring = s.ring ∧ t.svcResp = ⟨false, false, 0⟩ ∧
      SameSampleSide t (tickNext .none s.inputs.cap s) ∧ KeepsSurroundings s t

/-- R143, R137: the no-op descriptor does nothing in any tick, and outside an active tick no descriptor, whichever is looked up, does: the
tick changes `running` only as the request bits say, captures no time (the values stay, and the valid tags too, but for `clear` and the
start of a session, which clear them: R147), and leaves the ring to the service side. -/
def Obligations.NothingFiresWithoutAnActiveFlag : Prop :=
  ∀ (s : State) (i : Instr) (d : ActionDescriptor) (slot : BitVec 2) (bc : ByteCondition) (entries : Vector (BitVec 3) 16), PortsDefined s →
    (i = .actNop d.captureDataSelect ∨
      triggerActive s.trig s.inputs.cap.tcfg = false ∧
        (i = .actHalt d.recordData d.recordTime d.recordInvalidate d.captureDataSelect ∨
          i = .actRecordData d.recordTime d.recordInvalidate d.captureDataSelect ∨
          i = .actRecordTime d.recordInvalidate d.captureDataSelect ∨ i = .actRecordInvalidate d.captureDataSelect ∨
          i = .retract ∨ i = .timerCapture ∨ i = .cselLane slot ∨ i = .cselData1 slot ∨ i = .byteMatch slot bc ∨
          i = .actionLookup entries)) →
    ∃ t, exec i s = .next t ∧ t.trig = triggerNext s.inputs.cap.tcfg false s.trig ∧
      t.timer.recordedValue.value = s.timer.recordedValue.value ∧ t.timer.recordedDelta.value = s.timer.recordedDelta.value ∧
      (s.inputs.cap.tcfg.clear = true ∨ s.trig.running = false ∧ t.trig.running = true →
        t.timer.recordedValue.valid = false ∧ t.timer.recordedDelta.valid = false) ∧
      (s.inputs.cap.tcfg.clear = false → (s.trig.running = true ∨ t.trig.running = false) →
        t.timer.recordedValue.valid = s.timer.recordedValue.valid ∧ t.timer.recordedDelta.valid = s.timer.recordedDelta.valid) ∧
      ((serviceRequest s.xing s.inputs.cap).valid = false → t.ring = s.ring) ∧
      SameSampleSide t (tickNext .none s.inputs.cap s) ∧ KeepsSurroundings s t

/-! ## The matcher and the action table -/

/-- R120 to R124: a condition on a valid sample, or one that ignores validity, is exactly the masked comparison, for every byte, mask and
pattern; a condition that does not ignore validity is false on an invalid sample. The byte is that of R120, and for a reserved byte source
whatever byte is given: that the validity policy and the masked comparison apply to it is the model's choice, log entry 6 (U3 says to
refuse the configuration). -/
def Obligations.ByteMatchIsTheMaskedComparison : Prop :=
  ∀ (rsv : Byte) (bs : Sample4) (bc : ByteCondition),
    let lane := if bc.conditionSelect = 1 ∨ bc.byteSelect.getLsbD 2 = true then bs.lane.l1 else bs.lane.l0
    let byte : Byte := if bc.conditionSelect.toNat < 2 then (lane >>> (8 * (bc.byteSelect.toNat % 4))).setWidth 8 else rsv
    (bs.valid = true ∨ bc.ignoreValid = true → (byteMatches rsv bs bc = true ↔ byte &&& bc.mask = bc.pattern &&& bc.mask)) ∧
    (bs.valid = false → bc.ignoreValid = false → byteMatches rsv bs bc = false)

/-- R120, R125 to R127, R139: in an active tick without `start` the presented condition, the presented byte source, or the presented
action set decides with the rest of the configuration which descriptor is looked up: `running` stays 1 exactly if that descriptor does not
halt. -/
def Obligations.ConditionsAndActionSetDecideTheDescriptor : Prop :=
  ∀ s : State, PortsDefined s → triggerActive s.trig s.inputs.cap.tcfg = true →
    (∀ (slot : BitVec 2) (bc : ByteCondition) (i : Instr), bc.conditionSelect.toNat < 2 →
      (i = .byteMatch slot bc ∨
        (∃ code : BitVec 2, bc = { s.inputs.cap.tcfg.cond[slot.toNat]'slot.isLt with conditionSelect := code } ∧
          (i = .cselLane slot ∧ code = 0 ∨ i = .cselData1 slot ∧ code = 1))) →
      ∃ (t : State) (vec : BitVec 4), exec i s = .next t ∧
        vec.getLsbD slot.toNat = byteMatches 0 (tickBounded s.inputs.cap s) bc ∧
        (∀ j < 4, j ≠ slot.toNat → vec.getLsbD j = (tickVector s.inputs.cap s).getLsbD j) ∧
        t.trig.running = !(actionLookupResult s.inputs.cap.tcfg.actionSet s.inputs.cap.tcfg.action vec).haltCapture ∧
        SameSampleSide t (tickNext .none s.inputs.cap s) ∧ KeepsSurroundings s t) ∧
    (∀ entries : Vector (BitVec 3) 16, ∃ t, exec (.actionLookup entries) s = .next t ∧
      t.trig.running = !(actionLookupResult entries s.inputs.cap.tcfg.action (tickVector s.inputs.cap s)).haltCapture ∧
      SameSampleSide t (tickNext .none s.inputs.cap s) ∧ KeepsSurroundings s t)

/-- R75, R120 (U3): a condition with a reserved `condition_select` does not stop the machine: the model's choice, log entry 6, where R86
says to refuse the configuration. The byte it compares is a free value, so only what does not depend on it is said: the chain, the master,
the filter and the reducers go on as without it. -/
def Obligations.ReservedByteSourceRunsOn : Prop :=
  ∀ (s : State) (slot : BitVec 2) (i : Instr), PortsDefined s → (i = .cselRsvd2 slot ∨ i = .cselRsvd3 slot) →
    ∃ t, exec i s = .next t ∧ SameSampleSide t (tickNext .none s.inputs.cap s) ∧
      t.trig.enabled = s.inputs.cap.tcfg.enable ∧ t.trig.clearing = s.inputs.cap.tcfg.clear ∧ KeepsSurroundings s t

/-! ## The ring buffer -/

/-- R161, R180, R56: a granted service access answers with the word before the tick; a read changes nothing, a write puts the ALU's result
at the address and nowhere else; pointers, `last_push_live` and the level are untouched either way. -/
def Obligations.ServiceAccessReadsAndWrites : Prop :=
  ∀ s : State, s.inputs.cap.reset = false → ServiceFree s.inputs.cap s →
    ∃ t, exec (.access .service) s = .next t ∧
      t.svcResp = ⟨true, true, Memory.read s.ring.mem s.inputs.cap.svcReq.address⟩ ∧
      (s.inputs.cap.svcReq.writeFlag = false → t.ring = s.ring) ∧
      (s.inputs.cap.svcReq.writeFlag = true → KeepsStoreBut (some s.inputs.cap.svcReq.address) s.ring.mem t.ring.mem ∧
        (s.inputs.cap.svcReq.aluOp.toNat ≤ 8 → Memory.read t.ring.mem s.inputs.cap.svcReq.address =
          alu 0 ⟨s.inputs.cap.svcReq.aluOp, s.inputs.cap.svcReq.data, s.inputs.cap.svcReq.n⟩
            (Memory.read s.ring.mem s.inputs.cap.svcReq.address))) ∧
      t.ring.wp = s.ring.wp ∧ t.ring.rp = s.ring.rp ∧ t.ring.lastPushLive = s.ring.lastPushLive ∧ t.fifo.level = s.ring.occ ∧
      SameSampleSide t (tickNext .none s.inputs.cap s) ∧ t.trig = (tickNext .none s.inputs.cap s).trig ∧
      t.timer = (tickNext .none s.inputs.cap s).timer ∧ KeepsSurroundings s t

/-- R162, R180, R178: a granted `reset_ptrs` zeroes both pointers and `last_push_live`, changes no word of the store, returns no data, and
pulses `low_watermark_reached` exactly if the occupancy was above the threshold. -/
def Obligations.ResetPtrsEmptiesTheBuffer : Prop :=
  ∀ s : State, s.inputs.cap.reset = false → ServiceFree s.inputs.cap s →
    ∃ t, exec (.resetPtrs .service) s = .next t ∧ t.ring = ⟨s.ring.mem, 0, 0, false⟩ ∧ t.svcResp = ⟨true, false, 0⟩ ∧
      t.fifo = ⟨0, false, decide (s.inputs.cap.rcfg.lowWatermark.toNat < s.ring.occ.toNat), false, false⟩ ∧
      SameSampleSide t (tickNext .none s.inputs.cap s) ∧ t.trig = (tickNext .none s.inputs.cap s).trig ∧
      t.timer = (tickNext .none s.inputs.cap s).timer ∧ KeepsSurroundings s t

/-- R164, R180: a granted `pop` of an empty buffer changes nothing, answers invalid and reports `underflow`; of any other it answers with
the word at `rp` and advances `rp`, and the pop that empties the buffer clears `last_push_live`. No word of the store changes. -/
def Obligations.PopReturnsTheOldestWord : Prop :=
  ∀ s : State, s.inputs.cap.reset = false → ServiceFree s.inputs.cap s →
    ∃ t, exec (.pop .service) s = .next t ∧
      (s.ring.occ = 0 → t.ring = s.ring ∧ t.svcResp = ⟨true, false, 0⟩ ∧ t.fifo.underflow = true) ∧
      (s.ring.occ ≠ 0 → t.ring.mem = s.ring.mem ∧ t.ring.wp = s.ring.wp ∧ t.ring.rp = s.ring.rp + 1 ∧
        t.ring.lastPushLive = (decide (s.ring.occ ≠ 1) && s.ring.lastPushLive) ∧
        t.svcResp = ⟨true, true, Memory.read s.ring.mem (ptrAddr s.ring.rp)⟩ ∧ t.fifo.underflow = false) ∧
      SameSampleSide t (tickNext .none s.inputs.cap s) ∧ t.trig = (tickNext .none s.inputs.cap s).trig ∧
      t.timer = (tickNext .none s.inputs.cap s).timer ∧ KeepsSurroundings s t

/-- R158, R163, R161, R81: in an active tick whose descriptor records, `push` as the record op pushes into a buffer with room, `access`
combines at OffsetBound's address, and `reset_ptrs` and `pop` record nothing and leave the ring to the service side. -/
def Obligations.RecordOpChoosesPushOrAccess : Prop :=
  ∀ s : State, PortsDefined s → (tickFired s.inputs.cap s).data = true → s.inputs.cap.rcfg.aluOp.toNat ≤ 8 →
    let v := (tickBounded s.inputs.cap s).lane.lane (tickDescriptor s.inputs.cap s).captureDataSelect
    (s.ring.occ ≠ 2048 → ∃ t, exec (.push .record) s = .next t ∧ t.ring.wp = s.ring.wp + 1 ∧ t.ring.rp = s.ring.rp ∧
      t.ring.lastPushLive = true ∧
      Memory.read t.ring.mem (ptrAddr s.ring.wp) = alu 0 ⟨s.inputs.cap.rcfg.aluOp, v, 1⟩ (Memory.read s.ring.mem (ptrAddr s.ring.wp)) ∧
      KeepsStoreBut (some (ptrAddr s.ring.wp)) s.ring.mem t.ring.mem ∧ KeepsSurroundings s t) ∧
    (s.ring.occ = 2048 → ∃ t, exec (.push .record) s = .next t ∧ t.ring = s.ring ∧ t.fifo.overflow = true ∧ KeepsSurroundings s t) ∧
    (∃ t, exec (.access .record) s = .next t ∧ t.ring.wp = s.ring.wp ∧ t.ring.rp = s.ring.rp ∧
      Memory.read t.ring.mem (tickOffset s.inputs.cap s) =
        alu 0 ⟨s.inputs.cap.rcfg.aluOp, v, 1⟩ (Memory.read s.ring.mem (tickOffset s.inputs.cap s)) ∧
      KeepsStoreBut (some (tickOffset s.inputs.cap s)) s.ring.mem t.ring.mem ∧ KeepsSurroundings s t) ∧
    (∀ i, (i = .resetPtrs .record ∨ i = .pop .record) → (serviceRequest s.xing s.inputs.cap).valid = false →
      ∃ t, exec i s = .next t ∧ t.ring = s.ring ∧ t.svcResp = ⟨false, false, 0⟩ ∧ KeepsSurroundings s t)

/-- R159, R160 (U7): a service push stops the tick exactly when it would be granted; if a record request wins the tick, it is not
acknowledged (log entry 21). -/
def Obligations.ServicePushIsRefusedOnlyWhenGranted : Prop :=
  ∀ s : State, s.inputs.cap.reset = false → s.xing.presents s.inputs.cap.xPresent = false →
    ((tickRecord s.inputs.cap s).valid = false → exec (.push .service) s = .refused .servicePush) ∧
    ((tickRecord s.inputs.cap s).valid = true →
      ∃ t, exec (.push .service) s = .next t ∧ t.svcResp = ⟨false, false, 0⟩ ∧ t.ring = (tickNext .none s.inputs.cap s).ring)

/-- R168 to R176: the nine ALU ops. In a tick that stores a word, at an address `a` with the operands `v` and `n` (a service write, a
recorded access, or a push into a buffer with room), the word written, from the word before, `v` and `n`; all else the tick does is what
it does with any ALU op, and no other word of the store changes. -/
def Obligations.AluOpsCombineTheStoredWord : Prop :=
  ∀ (s : State) (a : RingAddr) (args : AluArgs), PortsDefined s → StoresWith (tickRingOp s.inputs.cap s) s.ring a args →
    let old := Memory.read s.ring.mem a
    let v := args.v
    let lo (w : Word) : Nat := w.toNat % 65536
    let hi (w : Word) : Nat := w.toNat / 65536
    ∀ (i : Instr) (result : Nat),
      (i = .write8 ∧ result = v.toNat % 256 ∨ i = .write16 ∧ result = lo v ∨ i = .write32 ∧ result = v.toNat ∨
        i = .inc32 ∧ result = (old.toNat + args.n.toNat) % 2 ^ 32 ∨
        i = .sum32 ∧ result = (old.toNat + v.toNat) % 2 ^ 32 ∨
        i = .min32 ∧ result = min old.toNat v.toNat ∨ i = .max32 ∧ result = max old.toNat v.toNat ∨
        i = .minMax16 ∧ result = max (hi old) (hi v) * 65536 + min (lo old) (lo v) ∨
        i = .inc16Add16 ∧ result = (hi old + lo v) % 65536 * 65536 + (lo old + 1) % 65536) →
      ∃ t, exec i s = .next t ∧ (Memory.read t.ring.mem a).toNat = result ∧ KeepsStoreBut (some a) s.ring.mem t.ring.mem ∧
        SameButStore t (tickNext .none s.inputs.cap s)

/-- R167 (U2): a reserved ALU op in a tick that stores a word does not stop the machine (the model's choice, log entry 5: R86 says to
refuse the configuration): the word written is a free value, and everything else is as for the other ops. -/
def Obligations.ReservedAluOpsRunOn : Prop :=
  ∀ (s : State) (i : Instr) (code : BitVec 4) (a : RingAddr) (args : AluArgs), PortsDefined s →
    StoresWith (tickRingOp s.inputs.cap s) s.ring a args → reservedAluCode i = some code →
    ∃ t, exec i s = .next t ∧ KeepsStoreBut (some a) s.ring.mem t.ring.mem ∧ SameButStore t (tickNext .none s.inputs.cap s)

/-- R167: an ALU op, reserved or not, in a tick that stores no word changes nothing of the tick. (That the tick goes on under the codes 9
to 15 is the model's choice, log entry 5: R86 and U2 say to refuse the configuration.) -/
def Obligations.AluOpsMatterOnlyToAStore : Prop :=
  ∀ (s : State) (i : Instr) (code : BitVec 4), PortsDefined s → captureInputsOf i s = some (.none, aluInputs code s) →
    storeAddress (tickRingOp s.inputs.cap s) s.ring = .none → exec i s = .next (tickNext .none s.inputs.cap s)

/-- R178: FifoStatus after every capture tick that is no reset tick: the level is the occupancy after it, the watermark flags are the
crossings, `overflow` is a push to a full buffer and `underflow` a pop of an empty one. -/
def Obligations.FifoStatusAfterEveryTick : Prop :=
  ∀ (op : MasterOp) (inp : CaptureInputs) (s t : State), inp.reset = false → captureTick op inp s = .next t →
    t.fifo.level = t.ring.occ ∧
    (t.fifo.highWatermarkReached = true ↔
      s.ring.occ.toNat < inp.rcfg.highWatermark.toNat ∧ inp.rcfg.highWatermark.toNat ≤ t.ring.occ.toNat) ∧
    (t.fifo.lowWatermarkReached = true ↔
      inp.rcfg.lowWatermark.toNat < s.ring.occ.toNat ∧ t.ring.occ.toNat ≤ inp.rcfg.lowWatermark.toNat) ∧
    (t.fifo.overflow = true ↔ s.ring.occ = 2048 ∧ ∃ args, tickRingOp inp s = .push args) ∧
    (t.fifo.underflow = true ↔ s.ring.occ = 0 ∧ tickRingOp inp s = .pop)

/-- R186 (5): after every capture tick from a state whose ring is well-formed, at most one of the four flags is 1. -/
def Obligations.StatusFlagsExcludeOneAnother : Prop :=
  ∀ (op : MasterOp) (inp : CaptureInputs) (s t : State), ringOk s.ring = true → inp.reset = false → captureTick op inp s = .next t →
    ¬(t.fifo.overflow = true ∧ t.fifo.underflow = true) ∧
    ¬(t.fifo.highWatermarkReached = true ∧ t.fifo.lowWatermarkReached = true) ∧
    (t.fifo.overflow = true ∨ t.fifo.underflow = true →
      t.fifo.highWatermarkReached = false ∧ t.fifo.lowWatermarkReached = false)

/-- R181: from any empty buffer, pushing at most 2048 words with `write32` gives that level, and popping as many returns them in FIFO
order and empties it again; one push more than 2048 is rejected and changes nothing. -/
def Obligations.PushedWordsPopInOrder : Prop :=
  ∀ (rsv : Word) (ws : List Word) (r : Ring), r.occ = 0 → ws.length ≤ 2048 →
    (pushAll rsv ws r).occ = BitVec.ofNat 12 ws.length ∧ (drain ws.length (pushAll rsv ws r)).1 = ws ∧
      (drain ws.length (pushAll rsv ws r)).2.occ = 0 ∧
      (ws.length = 2048 → ∀ args, pushRing rsv args (pushAll rsv ws r) = pushAll rsv ws r)

/-- R54, R58, R59, R190: what an operation leaves alone. For every operation that is a capture tick: every word of the store but the one
its ring op stores to reads as before; without a ring op the ring is unchanged; the readout port, the ports and the schedule are
unchanged; the filter's history changes only when a sample is admitted. -/
def Obligations.OperationsKeepWhatTheyDoNotWrite : Prop :=
  ∀ (i : Instr) (s t : State) (op : MasterOp) (inp : CaptureInputs), captureInputsOf i s = some (op, inp) → inp.reset = false →
    exec i s = .next t →
    KeepsStoreBut (storeAddress (tickRingOp inp s) s.ring) s.ring.mem t.ring.mem ∧ (tickRingOp inp s = .idle → t.ring = s.ring) ∧
      (filterAdmits inp.fcfg s.filter (chainSample inp.src s.nodes) = false → t.filter = s.filter) ∧ KeepsSurroundings s t

/-! ## The data path -/

/-- R152, R153: `FILTER_ADMIT.match` admits a valid sample that equals `value` under `mask` in every lane, `FILTER_ADMIT.change` one that
differs from the last admitted one in a bit of the mask, or that has none before it; the history becomes the admitted sample and is
unchanged otherwise. -/
def Obligations.FilterAdmitsAndRemembers : Prop :=
  ∀ s : State, PortsDefined s →
    let raw := chainSample s.inputs.cap.src s.nodes
    let m := s.inputs.cap.fcfg.mask
    let v := s.inputs.cap.fcfg.value
    let p := s.filter.prev
    (∃ t, exec .filterMatch s = .next t ∧
      t.filter = (if raw.valid = true ∧ raw.lane.l0 &&& m.l0 = v.l0 &&& m.l0 ∧ raw.lane.l1 &&& m.l1 = v.l1 &&& m.l1 ∧
          raw.lane.l2 &&& m.l2 = v.l2 &&& m.l2 ∧ raw.lane.l3 &&& m.l3 = v.l3 &&& m.l3
        then ⟨raw.lane, true⟩ else s.filter) ∧
      t.nodes = (tickNext .none s.inputs.cap s).nodes ∧ t.master = (tickNext .none s.inputs.cap s).master ∧
      t.out = (tickNext .none s.inputs.cap s).out ∧ KeepsSurroundings s t) ∧
    (∃ t, exec .filterChange s = .next t ∧
      t.filter = (if raw.valid = true ∧ (s.filter.prevValid = false ∨ raw.lane.l0 &&& m.l0 ≠ p.l0 &&& m.l0 ∨
          raw.lane.l1 &&& m.l1 ≠ p.l1 &&& m.l1 ∨ raw.lane.l2 &&& m.l2 ≠ p.l2 &&& m.l2 ∨ raw.lane.l3 &&& m.l3 ≠ p.l3 &&& m.l3)
        then ⟨raw.lane, true⟩ else s.filter) ∧
      t.nodes = (tickNext .none s.inputs.cap s).nodes ∧ t.master = (tickNext .none s.inputs.cap s).master ∧
      t.out = (tickNext .none s.inputs.cap s).out ∧ KeepsSurroundings s t)

/-- R155: in the duplicate-suppression mode with all-ones masks, of the valid samples A, A, B with A ≠ B, presented from no history or
from a history other than A, the first and the third are admitted and the second is dropped as no sample. Any number of invalid samples
may stand between them: an invalid sample is dropped and leaves the history as it is. -/
def Obligations.DuplicateSampleIsDropped : Prop :=
  ∀ (c : FilterConfig) (f : FilterState) (a b : Lanes), c.acceptUnchanging = true →
    c.mask = ⟨0xFFFFFFFF, 0xFFFFFFFF, 0xFFFFFFFF, 0xFFFFFFFF⟩ → a ≠ b → (f.prevValid = false ∨ f.prev ≠ a) →
    let f1 := filterNext c ⟨true, a⟩ f
    let f2 := filterNext c ⟨true, a⟩ f1
    (filtered c f ⟨true, a⟩ = ⟨true, a⟩ ∧ filtered c f1 ⟨true, a⟩ = Sample4.zero ∧ filtered c f2 ⟨true, b⟩ = ⟨true, b⟩) ∧
      ∀ (g : FilterState) (l : Lanes), filterNext c ⟨false, l⟩ g = g ∧ filtered c g ⟨false, l⟩ = Sample4.zero

/-- R156, and R150's bounded sample: ValueBound, enabled: with a valid filtered sample it stores the extracted field of lane 0, or, if the
shifted value does not fit the window, the maximum or minimum of that field and the stored reduction, and the bounded sample has that
result in lane 0 and the filtered sample's other lanes; with an invalid one the stored reduction stays and the bounded sample is the
filtered one. Not enabled, in any tick that is no reset tick, it zeroes the stored reduction and the bounded sample is the filtered one. -/
def Obligations.ValueBoundTracksTheReduction : Prop :=
  (∀ (s : State) (maxMin : Bool), PortsDefined s →
    let c := s.inputs.cap.rcfg.vb
    let fs := tickFiltered s.inputs.cap s
    let w := min c.maskSize.toNat 32
    let y := ((fs.lane.l0 - c.base).toNat) / 2 ^ c.shift.toNat
    let e := y % 2 ^ w
    ∃ t, exec (.valueBound maxMin) s = .next t ∧
      (fs.valid = false → t.vbStored = s.vbStored ∧ tickBounded (valueBoundInputs maxMin s) s = fs) ∧
      (fs.valid = true → t.vbStored.toNat =
          (if y < 2 ^ w then e else if maxMin then max s.vbStored.toNat e else min s.vbStored.toNat e) ∧
        tickBounded (valueBoundInputs maxMin s) s = ⟨true, ⟨t.vbStored, fs.lane.l1, fs.lane.l2, fs.lane.l3⟩⟩) ∧
      t.nodes = (tickNext .none s.inputs.cap s).nodes ∧ t.master = (tickNext .none s.inputs.cap s).master ∧
      t.out = (tickNext .none s.inputs.cap s).out ∧ t.filter = (tickNext .none s.inputs.cap s).filter ∧ KeepsSurroundings s t) ∧
  ∀ (op : MasterOp) (inp : CaptureInputs) (s t : State), inp.reset = false → inp.rcfg.vb.enable = false →
    captureTick op inp s = .next t → t.vbStored = 0 ∧ tickBounded inp s = tickFiltered inp s

/-- R157, R158: OffsetBound gives a recorded sample in `access` mode its address: 0 below the base, 2047 beyond the last bucket, the
bucket otherwise. In an active tick whose descriptor records, the word at that address is combined with the recorded lane, and no other
word changes. In a tick that records no data OffsetBound changes nothing. -/
def Obligations.OffsetBoundAddressesTheBucket : Prop :=
  ∀ (s : State) (useData1 noBkts : Bool), PortsDefined s →
    let c := s.inputs.cap.rcfg.ob
    let l := (tickFiltered s.inputs.cap s).lane
    let src := if useData1 then l.l1.toNat else l.l0.toNat
    let y := if noBkts then src - c.base.toNat else (src - c.base.toNat) / 2 ^ c.shift.toNat
    let v := (tickBounded s.inputs.cap s).lane.lane (tickDescriptor s.inputs.cap s).captureDataSelect
    ((tickFired s.inputs.cap s).data = true → s.inputs.cap.rcfg.recordOp = 0 → s.inputs.cap.rcfg.aluOp.toNat ≤ 8 →
      ∃ (t : State) (a : RingAddr), exec (.offsetBound useData1 noBkts) s = .next t ∧
        a.toNat = (if src < c.base.toNat then 0 else min y 2047) ∧
        Memory.read t.ring.mem a = alu 0 ⟨s.inputs.cap.rcfg.aluOp, v, 1⟩ (Memory.read s.ring.mem a) ∧
        KeepsStoreBut (some a) s.ring.mem t.ring.mem ∧ SameButStore t (tickNext .none s.inputs.cap s)) ∧
    ((tickFired s.inputs.cap s).data = false →
      exec (.offsetBound useData1 noBkts) s = .next (tickNext .none s.inputs.cap s))

/-! ## The timer -/

/-- R145, R146: in a tick without `clear` the timer advances, modulo 2^32, exactly when the prescaler has reached `timer_div`, which it
does whether or not the trigger runs; `clear` zeroes both. The division rate changes nothing else. -/
def Obligations.TimerAdvancesAtTheDivisionRate : Prop :=
  ∀ (s : State) (d : Byte), PortsDefined s →
    ∃ t, exec (.timerTick d) s = .next t ∧
      (s.inputs.cap.tcfg.clear = true → t.timer.divCnt = 0 ∧ t.timer.timer = 0) ∧
      (s.inputs.cap.tcfg.clear = false → d.toNat ≤ s.timer.divCnt.toNat →
        t.timer.divCnt = 0 ∧ t.timer.timer.toNat = (s.timer.timer.toNat + 1) % 2 ^ 32) ∧
      (s.inputs.cap.tcfg.clear = false → s.timer.divCnt.toNat < d.toNat →
        t.timer.divCnt.toNat = s.timer.divCnt.toNat + 1 ∧ t.timer.timer = s.timer.timer) ∧
      t = { tickNext .none s.inputs.cap s with
        timer := { (tickNext .none s.inputs.cap s).timer with timer := t.timer.timer, divCnt := t.timer.divCnt } }

/-! ## The readout domain -/

/-- R63, R65: a readout request: accepted while the port is not busy, it fills `x_req` and sets `ro_busy`; while busy the pulse is
ignored. With nothing delivered `ro_strobe` is 0 and `ro_out` stays. No capture-domain register changes. -/
def Obligations.ReadoutRequestFillsTheSlot : Prop :=
  ∀ s : State, s.inputs.ro.reset = false → (s.xing.resp = .none ∨ s.inputs.ro.deliver = false) →
    ∃ t, exec .roRequest s = .next t ∧ t.readout = ⟨true, s.readout.out, false⟩ ∧
      (s.readout.busy = false → t.xing = { s.xing with req := true }) ∧ (s.readout.busy = true → t.xing = s.xing) ∧
      t = { s with readout := t.readout, xing := t.xing }

/-- R63, R64: a readout tick in which the crossing delivers puts the whole response on `ro_out`, pulses `ro_strobe`, frees the port and
empties `x_resp`. No capture-domain register changes. -/
def Obligations.ReadoutDeliversTheResponse : Prop :=
  ∀ (inp : ReadoutInputs) (s : State) (resp : RoResp), inp.reset = false → inp.deliver = true → s.xing.resp = some resp →
    s.readout.busy = true →
    ∃ t, readoutTick inp s = .next t ∧ t.readout = ⟨false, resp, true⟩ ∧ t.xing = { s.xing with resp := .none } ∧
      t = { s with readout := t.readout, xing := t.xing }

/-- R63, R159, R164: while the crossing presents its request, a capture tick without a record request pops for it: `x_resp` takes that
tick's response whole and `x_req` empties; in a tick with a record request it keeps waiting. (That a host request at the port in the same
tick is hidden by the crossing's is the model's choice, log entry 12; the bit that says that it keeps presenting is log entry 23's.) -/
def Obligations.CrossingPopsWhenGranted : Prop :=
  ∀ (op : MasterOp) (inp : CaptureInputs) (s : State), inp.reset = false → s.xing.presents inp.xPresent = true →
    ∃ t, captureTick op inp s = .next t ∧
      ((tickRecord inp s).valid = false → t.ring = popRing s.ring ∧ t.xing = ⟨false, false, some ⟨t.svcResp.valid, t.svcResp.data⟩⟩ ∧
        t.svcResp = (if s.ring.occ = 0 then ⟨true, false, 0⟩ else ⟨true, true, Memory.read s.ring.mem (ptrAddr s.ring.rp)⟩)) ∧
      ((tickRecord inp s).valid = true → t.xing = { s.xing with presenting := true } ∧ t.svcResp = ⟨false, false, 0⟩)

/-- R63 to R65, R164: a readout request, a capture tick in which the crossing presents it and no record request stands against it, and a
readout tick that delivers: `ro_out` is the oldest word of the buffer, or invalid if it was empty, `ro_strobe` pulses, the word is popped,
and the port and both slots are free again. (Under log entry 12, the model's choice, the crossing's pop hides a host request in the same
tick; the number 6 is log entry 8's, the slots' timing log entry 23's.) -/
def Obligations.ReadoutRequestPopsTheOldestWord : Prop :=
  ∀ (s : State) (inp1 inp2 inp3 : Inputs) (rest : List Event),
    s.script = ⟨inp1, .present ⟨.cfg, 6⟩⟩ :: ⟨inp2, .captureTick⟩ :: ⟨inp3, .readoutTick⟩ :: rest → s.readout.busy = false →
    s.xing = ⟨false, false, .none⟩ → inp1.ro.reset = false → inp2.cap.reset = false → inp2.cap.xPresent = true →
    (tickRecord inp2.cap s).valid = false → inp3.ro.reset = false → inp3.ro.deliver = true → inp3.ro.enable = false →
    ∃ t, Host.Core.run Sys2Proof.core 3 s = .next t ∧ t.script = rest ∧ t.xing = ⟨false, false, .none⟩ ∧ t.ring = popRing s.ring ∧
      t.readout = ⟨false, if s.ring.occ = 0 then ⟨false, 0⟩ else ⟨true, Memory.read s.ring.mem (ptrAddr s.ring.rp)⟩, true⟩

/-! ## Reset -/

/-- R196, R49: a capture operation in a reset tick, whatever it is, leaves every capture-domain register at its reset value, the chain as
long as it was, and the store unwritten. -/
def Obligations.ResetTickResetsTheCaptureDomain : Prop :=
  ∀ (i : Instr) (s : State) (op : MasterOp) (inp : CaptureInputs), captureInputsOf i s = some (op, inp) →
    s.inputs.cap.reset = true → s.inFlight = false →
    ∃ t, exec i s = .next t ∧ t.nodes = List.replicate s.nodes.length ⟨false, false, 0, 0⟩ ∧
      t.master = ⟨false, 0, false, true, 0, .idle⟩ ∧ t.filter = ⟨⟨0, 0, 0, 0⟩, false⟩ ∧ t.vbStored = 0 ∧
      t.trig = ⟨false, false, false⟩ ∧ t.timer = ⟨0, 0, ⟨0, false⟩, ⟨0, false⟩⟩ ∧ t.ring = ⟨s.ring.mem, 0, 0, false⟩ ∧
      t.fifo = ⟨0, false, false, false, false⟩ ∧ t.svcResp = ⟨false, false, 0⟩ ∧ t.xing = ⟨false, false, .none⟩ ∧
      t.out = ⟨⟨false, false, ⟨false, ⟨0, 0, 0, 0⟩⟩⟩, ⟨false, 0, false, false⟩⟩ ∧ KeepsSurroundings s t

/-- R197 (U8; log entry 20): the reset of one domain while a readout request is in flight is refused; without one, a readout reset resets
the port; the reset of both domains empties the port and both slots, leaves every capture-domain register at its reset value and the
outputs those of the reset state, writes no word of the store, and changes nothing else. -/
def Obligations.ResetInFlightNeedsBothDomains : Prop :=
  ∀ (op : MasterOp) (inp : CaptureInputs) (ro : ReadoutInputs) (s : State),
    (inp.reset = true → s.inFlight = true → captureTick op inp s = .refused .resetInFlight) ∧
    (ro.reset = true → s.inFlight = true → readoutTick ro s = .refused .resetInFlight) ∧
    (ro.reset = true → s.inFlight = false →
      readoutTick ro s = .next { s with readout := ⟨false, ⟨false, 0⟩, false⟩, xing := ⟨false, false, .none⟩ }) ∧
    resetBoth s =
      { s with
        nodes := List.replicate s.nodes.length ⟨false, false, 0, 0⟩
        master := ⟨false, 0, false, true, 0, .idle⟩
        filter := ⟨⟨0, 0, 0, 0⟩, false⟩
        vbStored := 0
        trig := ⟨false, false, false⟩
        timer := ⟨0, 0, ⟨0, false⟩, ⟨0, false⟩⟩
        ring := ⟨s.ring.mem, 0, 0, false⟩
        fifo := ⟨0, false, false, false, false⟩
        svcResp := ⟨false, false, 0⟩
        readout := ⟨false, ⟨false, 0⟩, false⟩
        xing := ⟨false, false, .none⟩
        out := ⟨⟨false, false, ⟨false, ⟨0, 0, 0, 0⟩⟩⟩, ⟨false, 0, false, false⟩⟩ }

/-! ## Invariants -/

/-- R49: the machine after reset, for every chain length N ≥ 1 and every time-out, meets the invariant. -/
def Obligations.InvariantHoldsAtReset : Prop := ∀ n timeout : Nat, 1 ≤ n → Inv (State.resetWith n timeout)

/-- R106, R107, R166, R178: every step from every state that meets the invariant leads to a state that meets it. -/
def Obligations.EveryStepKeepsTheInvariant : Prop := ∀ s t : State, Inv s → step s = .next t → Inv t

/-- R166 (c), R162 to R165: in a capture tick that is no reset tick a successful push moves `wp` by +1, a successful pop moves `rp` by +1
and a retract that takes an entry back moves `wp` by -1, each leaving the other pointer; `reset_ptrs` zeroes both; and with an `access`,
with a push to a full buffer, a pop of an empty one, a retract with nothing to take back, or no ring op neither moves. -/
def Obligations.OnePointerMovesByOne : Prop :=
  ∀ (op : MasterOp) (inp : CaptureInputs) (s t : State), inp.reset = false → captureTick op inp s = .next t →
    (∀ args, tickRingOp inp s = .push args →
      t.ring.rp = s.ring.rp ∧ t.ring.wp = if s.ring.occ = 2048 then s.ring.wp else s.ring.wp + 1) ∧
    (tickRingOp inp s = .pop → t.ring.wp = s.ring.wp ∧ t.ring.rp = if s.ring.occ = 0 then s.ring.rp else s.ring.rp + 1) ∧
    (∀ code, tickRingOp inp s = .retract code →
      t.ring.rp = s.ring.rp ∧ t.ring.wp = if code = 2 ∧ s.ring.lastPushLive = true then s.ring.wp - 1 else s.ring.wp) ∧
    (tickRingOp inp s = .resetPtrs → t.ring.wp = 0 ∧ t.ring.rp = 0) ∧
    (∀ a write, tickRingOp inp s = .access a write → t.ring.wp = s.ring.wp ∧ t.ring.rp = s.ring.rp) ∧
    (tickRingOp inp s = .idle → t.ring.wp = s.ring.wp ∧ t.ring.rp = s.ring.rp)
end

