-- ==== Sys2Proof/Laws/Chain.lean ====
section
/-! SUPPORT. What the chain does with a control word, said once: a word with enable low passes every node; a word with enable high
passes the nodes without the token up to the first that holds it, and the nodes behind that one see `ZERO_CTL`. -/

namespace Sys2Proof.Machine

@[simp] theorem chainNext_nil (w : CtlWord) : chainNext w [] = [] := rfl

@[simp] theorem chainOut_nil (w : CtlWord) : chainOut w [] = w := rfl

@[simp] theorem chainNext_length (w : CtlWord) (ns : List Node) : (chainNext w ns).length = ns.length := by
  induction ns generalizing w with
  | nil => rfl
  | cons n ns ih => simp [chainNext, ih]

/-- The chain is made of its parts: the second part sees what the first forwards. -/
theorem chainNext_append (w : CtlWord) (ns ms : List Node) :
    chainNext w (ns ++ ms) = chainNext w ns ++ chainNext (chainOut w ns) ms := by
  induction ns generalizing w with
  | nil => rfl
  | cons n ns ih => simp [chainNext, chainOut, ih]

theorem chainOut_append (w : CtlWord) (ns ms : List Node) : chainOut w (ns ++ ms) = chainOut (chainOut w ns) ms := by
  induction ns generalizing w with
  | nil => rfl
  | cons n ns ih => simp [chainOut, ih]

/-- A word that neither is claimed nor is a shift is forwarded as it is. -/
theorem nodeForward_pass {w : CtlWord} {n : Node} (hc : (w.enable && n.token) = false) (hs : w.isShift = false) :
    nodeForward w n = w := by
  simp [nodeForward, Node.claims, hc, hs]

/-- A node that claims the word masks it (R93). -/
theorem nodeForward_claim {w : CtlWord} {n : Node} (he : w.enable = true) (ht : n.token = true) : nodeForward w n = CtlWord.zero := by
  simp [nodeForward, Node.claims, he, ht]

/-- A word with enable low that is no chain op: every node is deselected, and the word leaves as it came (R95, R98). -/
theorem chain_deselect {w : CtlWord} (he : w.enable = false) (hd : (w.valid && decide (w.data.toNat ≤ 1)) = false) (ns : List Node) :
    chainNext w ns = ns.map Node.deselected ∧ chainOut w ns = w := by
  have hs : w.isShift = false := by
    unfold CtlWord.isShift
    cases hv : w.valid <;> simp_all
    intro h0; rw [h0] at hd; simp at hd
  induction ns with
  | nil => simp
  | cons n ns ih =>
    have hf : nodeForward w n = w := nodeForward_pass (by simp [he]) hs
    simp only [chainNext, chainOut, hf, ih, List.map_cons, and_true]
    simp [nodeNext, he, hd, Node.deselected]

/-- A broadcast sets every token (R97). -/
theorem chain_broadcast (all : Bool) (ns : List Node) :
    chainNext ⟨true, 1, false, all⟩ ns = ns.map (fun n => { n with token := all, selected := false }) ∧
      chainOut ⟨true, 1, false, all⟩ ns = ⟨true, 1, false, all⟩ := by
  induction ns with
  | nil => simp
  | cons n ns ih =>
    have hf : nodeForward ⟨true, 1, false, all⟩ n = ⟨true, 1, false, all⟩ := nodeForward_pass rfl rfl
    simp only [chainNext, chainOut, hf, ih, List.map_cons, and_true]
    simp [nodeNext]

/-- A shift word moves one token into each node and the node's own on (R96). -/
theorem chain_shift_cons (b : Bool) (n : Node) (ns : List Node) :
    chainNext ⟨true, 0, false, b⟩ (n :: ns) =
        { n with token := b, selected := false } :: chainNext ⟨true, 0, false, n.token⟩ ns ∧
      chainOut ⟨true, 0, false, b⟩ (n :: ns) = chainOut ⟨true, 0, false, n.token⟩ ns := by
  have hf : nodeForward ⟨true, 0, false, b⟩ n = ⟨true, 0, false, n.token⟩ := rfl
  exact ⟨by rw [chainNext, hf]; rfl, by rw [chainOut, hf]⟩

/-- A word with enable high passes the nodes without the token and deselects them (R103). -/
theorem chain_pass {w : CtlWord} (he : w.enable = true) {ns : List Node} (hn : ∀ n ∈ ns, n.token = false) :
    chainNext w ns = ns.map Node.deselected ∧ chainOut w ns = w := by
  induction ns with
  | nil => simp
  | cons n ns ih =>
    have ht : n.token = false := hn n (by simp)
    have hf : nodeForward w n = w := nodeForward_pass (by simp [ht]) (by simp [CtlWord.isShift, he])
    simp only [chainNext, chainOut, hf, ih fun m hm => hn m (by simp [hm]), List.map_cons, and_true]
    simp [nodeNext, he, ht, Node.deselected]

/-- The nodes behind the one that claims see `ZERO_CTL`. -/
theorem chain_masked (ns : List Node) : chainNext CtlWord.zero ns = ns.map Node.deselected ∧ chainOut CtlWord.zero ns = CtlWord.zero :=
  chain_deselect rfl rfl ns

/-- A word with enable high: the first node that holds the token takes it, every other node is deselected (R100 to R103). -/
theorem chain_claim {w : CtlWord} (he : w.enable = true) {before after : List Node} {n : Node}
    (hb : ∀ m ∈ before, m.token = false) (ht : n.token = true) :
    chainNext w (before ++ n :: after) = before.map Node.deselected ++ nodeNext w n :: after.map Node.deselected ∧
      chainOut w (before ++ n :: after) = CtlWord.zero := by
  rw [chainNext_append, chainOut_append, (chain_pass he hb).1, (chain_pass he hb).2, chainNext, chainOut, nodeForward_claim he ht,
    (chain_masked after).1, (chain_masked after).2]
  exact ⟨rfl, rfl⟩

/-- Every chain either has a first token holder or none. -/
theorem chain_first_token (ns : List Node) :
    (∀ m ∈ ns, m.token = false) ∨
      ∃ before n after, ns = before ++ n :: after ∧ (∀ m ∈ before, m.token = false) ∧ n.token = true := by
  induction ns with
  | nil => simp
  | cons n ns ih =>
    cases ht : n.token with
    | true => exact .inr ⟨[], n, ns, rfl, by simp, ht⟩
    | false =>
      rcases ih with h | ⟨before, m, after, rfl, hb, hm⟩
      · exact .inl (by simpa [ht] using h)
      · exact .inr ⟨n :: before, m, after, rfl, by simpa [ht] using hb, hm⟩

end Sys2Proof.Machine
end

