-- ==== Sys2Proof/Laws/Decode.lean ====
section
/-! SUPPORT. The decoder format by format. -/

namespace Sys2Proof

theorem decode_ctl7 (w : Nat) (h : w < 2 ^ 7) : decode ⟨.ctl7, w⟩ = .ok (decodeCtl7 (BitVec.ofNat 7 w)) := by
  unfold decode; exact if_pos (decide_eq_true h)

theorem decode_mop (w : Nat) : decode ⟨.mop, w⟩ = decodeMop w := rfl

theorem decode_treq4 (w : Nat) (h : w < 2 ^ 4) : decode ⟨.treq4, w⟩ = .ok (decodeTreq4 (BitVec.ofNat 4 w)) := by
  unfold decode; exact if_pos (decide_eq_true h)

theorem decode_act6 (w : Nat) (h : w < 2 ^ 6) : decode ⟨.act6, w⟩ = .ok (decodeAct6 (BitVec.ofNat 6 w)) := by
  unfold decode; exact if_pos (decide_eq_true h)

theorem decode_csel2 (w : Nat) (h : w < 2 ^ 4) : decode ⟨.csel2, w⟩ = .ok (decodeCsel2 (BitVec.ofNat 4 w)) := by
  unfold decode; exact if_pos (decide_eq_true h)

theorem decode_ringop2 (w : Nat) (h : w < 2 ^ 3) : decode ⟨.ringop2, w⟩ = .ok (decodeRingop2 (BitVec.ofNat 3 w)) := by
  unfold decode; exact if_pos (decide_eq_true h)

theorem decode_aluop4 (w : Nat) (h : w < 2 ^ 4) : decode ⟨.aluop4, w⟩ = decodeAluop4 w := by
  unfold decode; exact if_pos (decide_eq_true h)

theorem decode_bc22 (w : Nat) (h : w < 2 ^ 24) :
    decode ⟨.bc22, w⟩ = .ok (.byteMatch (BitVec.ofNat 2 (w / 2 ^ 22)) (unpackByteCondition (BitVec.ofNat 22 w))) := by
  unfold decode; exact if_pos (decide_eq_true h)

theorem decode_aset48 (w : Nat) (h : w < 2 ^ 48) :
    decode ⟨.aset48, w⟩ = .ok (.actionLookup (unpackActionSet (BitVec.ofNat 48 w))) := by
  unfold decode; exact if_pos (decide_eq_true h)

theorem decode_recflag (w : Nat) (h : w < 2 ^ 1) :
    decode ⟨.recflag, w⟩ = if w = 1 then .ok .retract else .error (.noSuchCode .recflag) := by
  unfold decode; exact if_pos (decide_eq_true h)

theorem decode_cfg (w : Nat) (h : w < 2 ^ 16) : decode ⟨.cfg, w⟩ = decodeCfg (BitVec.ofNat 16 w) := by
  unfold decode; exact if_pos (decide_eq_true h)

/-- A number that decodes fits its format. -/
theorem fits_of_decode {c : Code} {i : Instr} (h : decode c = .ok i) : c.fmt.fits c.word = true := by
  by_cases hf : c.fmt.fits c.word = true
  · exact hf
  · rw [decode, if_neg hf] at h; cases h

end Sys2Proof
end

