-- ==== Sys2Proof/Laws/Master.lean ====
section
/-! SUPPORT. What a tick can do to the issuing master, said once: which op it has, how an op begins while it is ready, and that
`m_completed` goes on saying whether an op is in progress. -/

namespace Sys2Proof.Machine

@[simp] theorem ready_mk (e s c : Bool) (n : BitVec 8) (wd : Nat) (q : MasterSeq) :
    Master.ready ⟨e, n, s, c, wd, q⟩ =
      match q with
      | .idle => true
      | .shiftOne _ => false
      | .shiftZeros _ => false
      | .wait => false
      | .timedOut => true := rfl

theorem ready_reset : Master.reset.ready = true := rfl

/-- An op presented is the op the master has. -/
theorem opOf_presented {follows : Bool} {op : MasterOp} {m : Master} (h : op ≠ .none) : m.opOf follows op = op := by
  cases op <;> first | contradiction | rfl

/-- The master has an op of its own after a time-out only. -/
theorem opOf_of_seq {follows : Bool} {op : MasterOp} {m : Master} (h : m.seq ≠ .timedOut) : m.opOf follows op = op := by
  unfold Master.opOf
  split
  · contradiction
  · rfl

/-- A time-out that is not followed up leaves the master without an op of its own. -/
@[simp] theorem opOf_false (op : MasterOp) (m : Master) : m.opOf false op = op := by
  unfold Master.opOf
  split <;> rfl

/-- A time-out that is followed up. -/
theorem opOf_timedOut {m : Master} (h : m.seq = .timedOut) : m.opOf true .none = .selectNone := by
  simp [Master.opOf, h]

/-- With no op in progress the master drives the first word of the op it has, after an answer and after a time-out alike. -/
theorem masterWord_of_ready {op : MasterOp} {m : Master} (h : m.ready = true) : masterWord op m = firstWord op m := by
  unfold Master.ready at h
  unfold masterWord
  cases hs : m.seq <;> simp [hs] at h <;> rfl

/-- With no op in progress the master starts the op it has, after an answer and after a time-out alike. -/
theorem masterDriveNext_of_ready {timeout : Nat} {op : MasterOp} {sel : Bool} {m : Master} (h : m.ready = true) :
    masterDriveNext timeout op sel m = masterStart op { m with selected := sel } := by
  unfold Master.ready at h
  unfold masterDriveNext
  cases hs : m.seq <;> simp [hs] at h <;> rfl

/-- R116, R117: `m_completed` says whether an op is in progress, and the watchdog stays within the time-out. -/
theorem masterOk_masterDriveNext {timeout : Nat} {m : Master} (op : MasterOp) (sel : Bool) (h : masterOk timeout m = true) :
    masterOk timeout (masterDriveNext timeout op sel m) = true := by
  simp only [masterOk, Bool.and_eq_true, decide_eq_true_eq] at h ⊢
  obtain ⟨e, c, s, comp, wd, seq⟩ := m
  obtain ⟨h1, h2⟩ := h
  simp only [ready_mk] at h1 h2
  cases seq with
  | idle => cases op <;> cases e <;> simp_all [masterDriveNext, masterStart, Master.ready]
  | shiftOne k => simp_all [masterDriveNext, Master.ready]
  | shiftZeros k => cases k <;> simp_all [masterDriveNext, Master.ready]
  | wait =>
    simp only [masterDriveNext, masterWait]
    split
    · simp_all [Master.ready]
    · split
      · simp_all [Master.ready]
      · exact ⟨h1, by simp only; omega⟩
  | timedOut => cases op <;> cases e <;> simp_all [masterDriveNext, masterStart, Master.ready]

end Sys2Proof.Machine
end

