-- ==== Sys2Proof/Laws/Memory.lean ====
section
/-! SUPPORT. Laws of the ring store: a read after a write, and the canonical form that every write keeps. -/

namespace Sys2Proof.Machine

/-- The word put at an address is what a lookup there finds. -/
@[simp] theorem Memory.lookup_insert_self (m : Memory) (a : Nat) (v : Word) : Memory.lookup (Memory.insert m a v) a = some v := by
  induction m with
  | nil => simp [Memory.insert, Memory.lookup]
  | cons e m ih =>
    obtain ⟨k, w⟩ := e
    simp only [Memory.insert]
    split
    · simp [Memory.lookup]
    · split
      · simp [Memory.lookup]
      · rename_i h
        rw [Memory.lookup, if_neg (fun hk => h hk.symm), ih]

/-- Putting a word at one address changes no lookup elsewhere. -/
theorem Memory.lookup_insert_ne (m : Memory) {a b : Nat} (v : Word) (h : a ≠ b) :
    Memory.lookup (Memory.insert m a v) b = Memory.lookup m b := by
  induction m with
  | nil => simp [Memory.insert, Memory.lookup, h]
  | cons e m ih =>
    obtain ⟨k, w⟩ := e
    simp only [Memory.insert]
    split
    · simp [Memory.lookup, h]
    · split
      · subst_vars; simp [Memory.lookup, h]
      · simp only [Memory.lookup, ih]

/-- R12: a read after a write to the same address gives the word written. -/
@[simp] theorem Memory.read_write_self (m : Memory) (a : RingAddr) (v : Word) : Memory.read (Memory.write m a v) a = v := by
  simp [Memory.read, Memory.write]

/-- R54: a write leaves every other word alone. -/
theorem Memory.read_write_ne (m : Memory) {a b : RingAddr} (v : Word) (h : a ≠ b) :
    Memory.read (Memory.write m a v) b = Memory.read m b := by
  have h' : a.toNat ≠ b.toNat := fun e => h (BitVec.eq_of_toNat_eq e)
  simp [Memory.read, Memory.write, Memory.lookup_insert_ne m v h']

/-- Putting a word at an address of the store keeps the addresses rising. -/
theorem Memory.risingFrom_insert (m : Memory) (lo a : Nat) (v : Word) (hlo : lo ≤ a) (ha : a < 2048)
    (h : Memory.risingFrom lo m = true) : Memory.risingFrom lo (Memory.insert m a v) = true := by
  induction m generalizing lo with
  | nil => simp [Memory.insert, Memory.risingFrom, hlo, ha]
  | cons e m ih =>
    obtain ⟨k, w⟩ := e
    simp only [Memory.risingFrom, Bool.and_eq_true, decide_eq_true_eq] at h
    obtain ⟨h1, h2, h3⟩ := h
    simp only [Memory.insert]
    split
    · simp only [Memory.risingFrom, Bool.and_eq_true, decide_eq_true_eq]
      exact ⟨hlo, ha, by omega, h2, h3⟩
    · split
      · subst_vars
        simp [Memory.risingFrom, hlo, ha, h3]
      · simp only [Memory.risingFrom, Bool.and_eq_true, decide_eq_true_eq]
        exact ⟨h1, h2, ih _ (by omega) h3⟩

/-- Every write keeps the canonical form. -/
theorem Memory.wf_write (m : Memory) (a : RingAddr) (v : Word) (h : Memory.wf m = true) : Memory.wf (Memory.write m a v) = true :=
  Memory.risingFrom_insert m 0 a.toNat v (Nat.zero_le _) a.isLt h

/-- The store of the reset state has the canonical form. -/
theorem Memory.wf_reset : Memory.wf State.reset.ring.mem = true := rfl

end Sys2Proof.Machine
end

