-- ==== Sys2Proof/Laws/Ring.lean ====
section
/-! SUPPORT. What an operation can do to the ring, said once: the pointers, the word it stores, the frame of the store, the canonical
form. -/

namespace Sys2Proof.Machine

/-- The free result matters only for the reserved codes (R167). -/
theorem alu_defined {args : AluArgs} (h : args.op.toNat ≤ 8) (r r' old : Word) : alu r args old = alu r' args old := by
  unfold alu; interval_cases args.op.toNat <;> rfl

@[simp] theorem accessRing_wp (rsv : Word) (a : RingAddr) (write : Option AluArgs) (r : Ring) : (accessRing rsv a write r).wp = r.wp := by
  cases write <;> rfl

@[simp] theorem accessRing_rp (rsv : Word) (a : RingAddr) (write : Option AluArgs) (r : Ring) : (accessRing rsv a write r).rp = r.rp := by
  cases write <;> rfl

@[simp] theorem accessRing_lastPushLive (rsv : Word) (a : RingAddr) (write : Option AluArgs) (r : Ring) :
    (accessRing rsv a write r).lastPushLive = r.lastPushLive := by
  cases write <;> rfl

@[simp] theorem accessRing_none (rsv : Word) (a : RingAddr) (r : Ring) : accessRing rsv a .none r = r := rfl

@[simp] theorem accessRing_some_mem (rsv : Word) (a : RingAddr) (args : AluArgs) (r : Ring) :
    (accessRing rsv a (some args) r).mem = Memory.write r.mem a (alu rsv args (Memory.read r.mem a)) := rfl

/-- A push makes the buffer one longer. -/
theorem occ_wp_add_one (m : Memory) (wp rp : RingPtr) (live : Bool) : Ring.occ ⟨m, wp + 1, rp, live⟩ = (wp - rp) + 1 := by
  unfold Ring.occ; ring

/-- A pop makes the buffer one shorter. -/
theorem occ_rp_add_one (m : Memory) (wp rp : RingPtr) (live : Bool) : Ring.occ ⟨m, wp, rp + 1, live⟩ = (wp - rp) - 1 := by
  unfold Ring.occ; ring

/-- A retract makes the buffer one shorter. -/
theorem occ_wp_sub_one (m : Memory) (wp rp : RingPtr) (live : Bool) : Ring.occ ⟨m, wp - 1, rp, live⟩ = (wp - rp) - 1 := by
  unfold Ring.occ; ring

theorem pushRing_full (rsv : Word) (args : AluArgs) (r : Ring) (h : r.occ = 2048) : pushRing rsv args r = r := by
  rw [pushRing, if_pos h]

theorem pushRing_room (rsv : Word) (args : AluArgs) (r : Ring) (h : r.occ ≠ 2048) :
    pushRing rsv args r =
      ⟨Memory.write r.mem (ptrAddr r.wp) (alu rsv args (Memory.read r.mem (ptrAddr r.wp))), r.wp + 1, r.rp, true⟩ := by
  rw [pushRing, if_neg h]

theorem popRing_empty (r : Ring) (h : r.occ = 0) : popRing r = r := by rw [popRing, if_pos h]

theorem popRing_some (r : Ring) (h : r.occ ≠ 0) :
    popRing r = { r with rp := r.rp + 1, lastPushLive := decide (r.occ ≠ 1) && r.lastPushLive } := by
  rw [popRing, if_neg h]
  by_cases h1 : r.occ = 1 <;> simp [h1]

@[simp] theorem popRing_mem (r : Ring) : (popRing r).mem = r.mem := by
  unfold popRing; split <;> rfl

@[simp] theorem popRing_wp (r : Ring) : (popRing r).wp = r.wp := by
  unfold popRing; split <;> rfl

@[simp] theorem retractRing_mem (op : BitVec 2) (r : Ring) : (retractRing op r).mem = r.mem := by
  unfold retractRing; split <;> rfl

@[simp] theorem retractRing_rp (op : BitVec 2) (r : Ring) : (retractRing op r).rp = r.rp := by
  unfold retractRing; split <;> rfl

/-- R54: an operation changes no word of the store but the one at `storeAddress`. -/
theorem runRing_keepsStore (rsv : Word) (op : RingOp) (r : Ring) : KeepsStoreBut (storeAddress op r) r.mem (runRing rsv op r).mem := by
  intro b hb
  cases op with
  | access a write =>
    cases write with
    | none => rfl
    | some args => exact Memory.read_write_ne _ _ fun e => hb (by simp [storeAddress, e])
  | push args =>
    by_cases h : r.occ = 2048
    · simp [runRing, pushRing_full _ _ _ h]
    · simp only [runRing, pushRing_room _ _ _ h]
      exact Memory.read_write_ne _ _ fun e => hb (by rw [storeAddress, if_neg h, e])
  | idle => rfl
  | resetPtrs => rfl
  | pop => simp [runRing]
  | retract op => simp [runRing]

/-- Every operation keeps the canonical form of the store. -/
theorem runRing_wf (rsv : Word) (op : RingOp) (r : Ring) (h : Memory.wf r.mem = true) : Memory.wf (runRing rsv op r).mem = true := by
  cases op with
  | access a write =>
    cases write with
    | none => exact h
    | some args => exact Memory.wf_write _ _ _ h
  | push args =>
    by_cases ho : r.occ = 2048
    · simpa [runRing, pushRing_full _ _ _ ho] using h
    · simp only [runRing, pushRing_room _ _ _ ho]
      exact Memory.wf_write _ _ _ h
  | idle => exact h
  | resetPtrs => exact h
  | pop => simpa [runRing] using h
  | retract op => simpa [runRing] using h

end Sys2Proof.Machine
end

