-- ==== Sys2Proof/Laws/State.lean ====
section
/-! SUPPORT. One lemma per field per update of State, each true by definition, so that no proof unfolds a record update. -/

namespace Sys2Proof.Machine

/-! ## A capture tick -/

@[simp] theorem tickNext_nodes (op : MasterOp) (inp : CaptureInputs) (s : State) :
    (tickNext op inp s).nodes = chainNext (tickCtl op inp s) s.nodes := rfl

@[simp] theorem tickNext_master (op : MasterOp) (inp : CaptureInputs) (s : State) :
    (tickNext op inp s).master = masterNext inp.bus s.params.masterTimeout (tickOp op inp s) (chainSelected s.nodes) s.master := rfl

@[simp] theorem tickNext_filter (op : MasterOp) (inp : CaptureInputs) (s : State) :
    (tickNext op inp s).filter = filterNext inp.fcfg (chainSample inp.src s.nodes) s.filter := rfl

@[simp] theorem tickNext_vbStored (op : MasterOp) (inp : CaptureInputs) (s : State) :
    (tickNext op inp s).vbStored = valueBoundNext inp.rcfg.vb (tickFiltered inp s) s.vbStored := rfl

@[simp] theorem tickNext_trig (op : MasterOp) (inp : CaptureInputs) (s : State) :
    (tickNext op inp s).trig = tickTrigger inp s := rfl

@[simp] theorem tickNext_timer (op : MasterOp) (inp : CaptureInputs) (s : State) :
    (tickNext op inp s).timer = timerNext inp.tcfg (tickNewSession inp s) (tickFired inp s).time s.timer := rfl

@[simp] theorem tickNext_ring (op : MasterOp) (inp : CaptureInputs) (s : State) : (tickNext op inp s).ring = tickRing inp s := rfl

@[simp] theorem tickNext_fifo (op : MasterOp) (inp : CaptureInputs) (s : State) :
    (tickNext op inp s).fifo = fifoNext inp.rcfg (tickRingOp inp s) s.ring.occ (tickRing inp s).occ := rfl

@[simp] theorem tickNext_svcResp (op : MasterOp) (inp : CaptureInputs) (s : State) :
    (tickNext op inp s).svcResp = tickSvcResp inp s := rfl

@[simp] theorem tickNext_xing (op : MasterOp) (inp : CaptureInputs) (s : State) :
    (tickNext op inp s).xing = crossingNext inp (tickSvcResp inp s) s.xing := rfl

@[simp] theorem tickNext_out (op : MasterOp) (inp : CaptureInputs) (s : State) :
    (tickNext op inp s).out = ⟨chainResponse (tickCtl op inp s) inp.src s.nodes, chainOut (tickCtl op inp s) s.nodes⟩ := rfl

@[simp] theorem tickNext_free (op : MasterOp) (inp : CaptureInputs) (s : State) : (tickNext op inp s).free = s.free + 1 := rfl

@[simp] theorem tickNext_readout (op : MasterOp) (inp : CaptureInputs) (s : State) : (tickNext op inp s).readout = s.readout := rfl

@[simp] theorem tickNext_params (op : MasterOp) (inp : CaptureInputs) (s : State) : (tickNext op inp s).params = s.params := rfl

@[simp] theorem tickNext_inputs (op : MasterOp) (inp : CaptureInputs) (s : State) : (tickNext op inp s).inputs = s.inputs := rfl

@[simp] theorem tickNext_script (op : MasterOp) (inp : CaptureInputs) (s : State) : (tickNext op inp s).script = s.script := rfl

/-! ## The resets -/

@[simp] theorem resetCapture_nodes (s : State) : (resetCapture s).nodes = s.nodes.map fun _ => Node.reset := rfl

@[simp] theorem resetCapture_master (s : State) : (resetCapture s).master = Master.reset := rfl

@[simp] theorem resetCapture_filter (s : State) : (resetCapture s).filter = FilterState.reset := rfl

@[simp] theorem resetCapture_vbStored (s : State) : (resetCapture s).vbStored = 0 := rfl

@[simp] theorem resetCapture_trig (s : State) : (resetCapture s).trig = TriggerState.reset := rfl

@[simp] theorem resetCapture_timer (s : State) : (resetCapture s).timer = Timer.reset := rfl

@[simp] theorem resetCapture_ring (s : State) : (resetCapture s).ring = { s.ring with wp := 0, rp := 0, lastPushLive := false } := rfl

@[simp] theorem resetCapture_fifo (s : State) : (resetCapture s).fifo = FifoStatus.reset := rfl

@[simp] theorem resetCapture_svcResp (s : State) : (resetCapture s).svcResp = SvcResp.reset := rfl

@[simp] theorem resetCapture_xing (s : State) : (resetCapture s).xing = Crossing.reset := rfl

@[simp] theorem resetCapture_out (s : State) : (resetCapture s).out = Outputs.reset := rfl

@[simp] theorem resetCapture_readout (s : State) : (resetCapture s).readout = s.readout := rfl

@[simp] theorem resetCapture_params (s : State) : (resetCapture s).params = s.params := rfl

@[simp] theorem resetCapture_free (s : State) : (resetCapture s).free = s.free := rfl

@[simp] theorem resetCapture_inputs (s : State) : (resetCapture s).inputs = s.inputs := rfl

@[simp] theorem resetCapture_script (s : State) : (resetCapture s).script = s.script := rfl

@[simp] theorem resetReadout_readout (s : State) : (resetReadout s).readout = Readout.reset := rfl

@[simp] theorem resetReadout_xing (s : State) : (resetReadout s).xing = Crossing.reset := rfl

@[simp] theorem resetReadout_nodes (s : State) : (resetReadout s).nodes = s.nodes := rfl

@[simp] theorem resetReadout_master (s : State) : (resetReadout s).master = s.master := rfl

@[simp] theorem resetReadout_filter (s : State) : (resetReadout s).filter = s.filter := rfl

@[simp] theorem resetReadout_vbStored (s : State) : (resetReadout s).vbStored = s.vbStored := rfl

@[simp] theorem resetReadout_trig (s : State) : (resetReadout s).trig = s.trig := rfl

@[simp] theorem resetReadout_timer (s : State) : (resetReadout s).timer = s.timer := rfl

@[simp] theorem resetReadout_ring (s : State) : (resetReadout s).ring = s.ring := rfl

@[simp] theorem resetReadout_fifo (s : State) : (resetReadout s).fifo = s.fifo := rfl

@[simp] theorem resetReadout_svcResp (s : State) : (resetReadout s).svcResp = s.svcResp := rfl

@[simp] theorem resetReadout_out (s : State) : (resetReadout s).out = s.out := rfl

@[simp] theorem resetReadout_params (s : State) : (resetReadout s).params = s.params := rfl

@[simp] theorem resetReadout_free (s : State) : (resetReadout s).free = s.free := rfl

@[simp] theorem resetReadout_inputs (s : State) : (resetReadout s).inputs = s.inputs := rfl

@[simp] theorem resetReadout_script (s : State) : (resetReadout s).script = s.script := rfl

/-! ## A readout tick -/

/-- A readout tick writes the readout port and the slots only. -/
theorem readoutNext_eq (inp : ReadoutInputs) (s : State) :
    readoutNext inp s = { s with readout := (readoutNext inp s).readout, xing := (readoutNext inp s).xing } := by
  unfold readoutNext; split <;> rfl

@[simp] theorem readoutNext_nodes (inp : ReadoutInputs) (s : State) : (readoutNext inp s).nodes = s.nodes := by
  rw [readoutNext_eq]

@[simp] theorem readoutNext_master (inp : ReadoutInputs) (s : State) : (readoutNext inp s).master = s.master := by
  rw [readoutNext_eq]

@[simp] theorem readoutNext_filter (inp : ReadoutInputs) (s : State) : (readoutNext inp s).filter = s.filter := by
  rw [readoutNext_eq]

@[simp] theorem readoutNext_vbStored (inp : ReadoutInputs) (s : State) : (readoutNext inp s).vbStored = s.vbStored := by
  rw [readoutNext_eq]

@[simp] theorem readoutNext_trig (inp : ReadoutInputs) (s : State) : (readoutNext inp s).trig = s.trig := by
  rw [readoutNext_eq]

@[simp] theorem readoutNext_timer (inp : ReadoutInputs) (s : State) : (readoutNext inp s).timer = s.timer := by
  rw [readoutNext_eq]

@[simp] theorem readoutNext_ring (inp : ReadoutInputs) (s : State) : (readoutNext inp s).ring = s.ring := by
  rw [readoutNext_eq]

@[simp] theorem readoutNext_fifo (inp : ReadoutInputs) (s : State) : (readoutNext inp s).fifo = s.fifo := by
  rw [readoutNext_eq]

@[simp] theorem readoutNext_svcResp (inp : ReadoutInputs) (s : State) : (readoutNext inp s).svcResp = s.svcResp := by
  rw [readoutNext_eq]

@[simp] theorem readoutNext_out (inp : ReadoutInputs) (s : State) : (readoutNext inp s).out = s.out := by
  rw [readoutNext_eq]

@[simp] theorem readoutNext_params (inp : ReadoutInputs) (s : State) : (readoutNext inp s).params = s.params := by
  rw [readoutNext_eq]

@[simp] theorem readoutNext_free (inp : ReadoutInputs) (s : State) : (readoutNext inp s).free = s.free := by
  rw [readoutNext_eq]

@[simp] theorem readoutNext_inputs (inp : ReadoutInputs) (s : State) : (readoutNext inp s).inputs = s.inputs := by
  rw [readoutNext_eq]

@[simp] theorem readoutNext_script (inp : ReadoutInputs) (s : State) : (readoutNext inp s).script = s.script := by
  rw [readoutNext_eq]

/-! ## The schedule -/

@[simp] theorem withFetchWord_script (s : State) (nbits w : Nat) :
    (s.withFetchWord nbits w).script = ⟨s.inputs, .present (tableCode nbits w)⟩ :: s.script := rfl

@[simp] theorem withFetchWord_inputs (s : State) (nbits w : Nat) : (s.withFetchWord nbits w).inputs = s.inputs := rfl

/-- A scheduled table word is what the next step presents. -/
theorem step_withFetchWord (s : State) (nbits w : Nat) : step (s.withFetchWord nbits w) = present (tableCode nbits w) s := rfl

end Sys2Proof.Machine
end

