-- ==== Sys2Proof/Laws/Tick.lean ====
section
/-! SUPPORT. What a capture tick and a readout tick can do, said once: their outcomes, and the tick of each operation. -/

namespace Sys2Proof.Machine

/-- A capture tick that is no reset tick and grants no service push goes on (R183). -/
theorem captureTick_of_defined {op : MasterOp} {inp : CaptureInputs} {s : State} (hr : inp.reset = false)
    (hp : grantsServicePush inp s = false) : captureTick op inp s = .next (tickNext op inp s) := by
  simp [captureTick, hr, hp]

/-- What a capture tick that answers a next state did: a reset with no readout request in flight, or a tick without a service push. -/
theorem captureTick_next {op : MasterOp} {inp : CaptureInputs} {s t : State} (h : captureTick op inp s = .next t) :
    (inp.reset = true ∧ s.inFlight = false ∧ t = resetCapture s) ∨
      (inp.reset = false ∧ grantsServicePush inp s = false ∧ t = tickNext op inp s) := by
  unfold captureTick at h
  split at h
  · split at h
    · cases h
    · cases h; exact .inl ⟨by assumption, by simp_all, rfl⟩
  · split at h
    · cases h
    · cases h; exact .inr ⟨by simp_all, by simp_all, rfl⟩

/-- What a readout tick that answers a next state did. -/
theorem readoutTick_next {inp : ReadoutInputs} {s t : State} (h : readoutTick inp s = .next t) :
    (inp.reset = true ∧ s.inFlight = false ∧ t = resetReadout s) ∨ (inp.reset = false ∧ t = readoutNext inp s) := by
  unfold readoutTick at h
  split at h
  · split at h
    · cases h
    · cases h; exact .inl ⟨by assumption, by simp_all, rfl⟩
  · cases h; exact .inr ⟨by simp_all, rfl⟩

/-- A grant executes nothing defined only if it is a service push (U7). -/
theorem grantsServicePush_eq (inp : CaptureInputs) (s : State) :
    grantsServicePush inp s =
      (!(tickRecord inp s).valid && ((serviceRequest s.xing inp).valid && decide ((serviceRequest s.xing inp).op = 2))) := by
  unfold grantsServicePush tickGrant arbitrate
  by_cases h1 : (tickRecord inp s).valid = true
  · simp only [h1, if_true, grantedOp]
    split <;> [rfl; split <;> rfl]
  · by_cases h2 : (serviceRequest s.xing inp).valid = true
    · simp only [h1, h2, if_true, if_false, Bool.false_eq_true]
      generalize (serviceRequest s.xing inp) = q
      simp only [grantedOp]
      have : ∀ o : BitVec 2, o = 0 ∨ o = 1 ∨ o = 2 ∨ o = 3 := by decide
      rcases this q.op with h | h | h | h <;> simp [h]
    · simp [h1, h2, grantedOp]

/-- Without a service push at the port no tick grants one: the crossing presents a pop (R63). -/
theorem grantsServicePush_of_port {inp : CaptureInputs} (s : State) (h : inp.svcReq.valid = true → inp.svcReq.op ≠ 2) :
    grantsServicePush inp s = false := by
  rw [grantsServicePush_eq]
  unfold serviceRequest
  split
  · simp [crossingPop]
  · by_cases hv : inp.svcReq.valid = true
    · have := h hv; simp_all
    · simp [hv]

/-- What no capture tick changes. -/
theorem keepsSurroundings_tickNext (op : MasterOp) (inp : CaptureInputs) (s : State) : KeepsSurroundings s (tickNext op inp s) := by
  refine ⟨rfl, rfl, rfl, rfl, ?_⟩
  have : ∀ (ns : List Node) (w : CtlWord), (chainNext w ns).length = ns.length := by
    intro ns; induction ns with
    | nil => intro w; rfl
    | cons n ns ih => intro w; simp [chainNext, ih]
  exact this _ _

/-- A capture operation is the capture tick of its inputs. -/
theorem exec_eq_captureTick {i : Instr} {s : State} {op : MasterOp} {inp : CaptureInputs} (h : captureInputsOf i s = some (op, inp)) :
    exec i s = captureTick op inp s := by
  cases i <;> cases h <;> rfl

/-! ## What the ports carry and what fires -/

/-- The ports' own service request, unchanged by an operation at another port. -/
theorem grantsServicePush_of_portsDefined {s : State} {inp : CaptureInputs} (h : PortsDefined s) (hs : inp.svcReq = s.inputs.cap.svcReq) :
    grantsServicePush inp s = false :=
  grantsServicePush_of_port s (by rw [hs]; exact h.2)

/-- Under defined ports an operation that leaves the service request and the reset alone goes on. -/
theorem exec_of_portsDefined {i : Instr} {s : State} {op : MasterOp} {inp : CaptureInputs} (h : PortsDefined s)
    (hi : captureInputsOf i s = some (op, inp)) (hs : inp.svcReq = s.inputs.cap.svcReq) (hr : inp.reset = s.inputs.cap.reset) :
    exec i s = .next (tickNext op inp s) := by
  rw [exec_eq_captureTick hi]
  exact captureTick_of_defined (hr.trans h.1) (grantsServicePush_of_portsDefined h hs)

/-- The lookup resolves to the presented descriptor. -/
@[simp] theorem tickDescriptor_descriptorInputs (d : ActionDescriptor) (s : State) : tickDescriptor (descriptorInputs d s) s = d := by
  simp [tickDescriptor, descriptorInputs, actionLookupResult]

/-- The lookup resolves to the configured descriptor as changed. -/
@[simp] theorem tickDescriptor_changedDescriptorInputs (f : ActionDescriptor → ActionDescriptor) (s : State) :
    tickDescriptor (changedDescriptorInputs f s) s = f (tickDescriptor s.inputs.cap s) := by
  simp [tickDescriptor, changedDescriptorInputs, actionLookupResult]; rfl

/-- Outside an active tick nothing is recorded (R137, R158). -/
theorem tickRecord_inactive {inp : CaptureInputs} {s : State} (h : triggerActive s.trig inp.tcfg = false) :
    (tickRecord inp s).valid = false := by
  simp [tickRecord, recordRequest, tickFired, fireActions, h]

/-- A tick without a request to the ring executes nothing on it. -/
theorem tickRingOp_idle {inp : CaptureInputs} {s : State} (hr : (tickRecord inp s).valid = false)
    (hv : (serviceRequest s.xing inp).valid = false) : tickRingOp inp s = .idle := by
  simp [tickRingOp, tickGrant, arbitrate, hr, hv, grantedOp]

/-- A tick without a request to the ring leaves the ring as it is. -/
theorem tickRing_idle {inp : CaptureInputs} {s : State} (hr : (tickRecord inp s).valid = false)
    (hv : (serviceRequest s.xing inp).valid = false) : tickRing inp s = s.ring := by
  rw [tickRing, tickRingOp_idle hr hv]; rfl

/-- Two ticks from one state whose inputs differ only in what the ring is asked are the same if the ring, its response and its flags
come out the same. -/
theorem tickNext_congr {s : State} {i j : CaptureInputs} (hbus : i.bus = j.bus) (hsrc : i.src = j.src) (hf : i.fcfg = j.fcfg)
    (ht : i.tcfg = j.tcfg) (hvb : i.rcfg.vb = j.rcfg.vb) (hhi : i.rcfg.highWatermark = j.rcfg.highWatermark)
    (hlo : i.rcfg.lowWatermark = j.rcfg.lowWatermark) (hx : i.xPresent = j.xPresent) (hm : i.masterFollows = j.masterFollows)
    (hfd : tickFired i s = tickFired j s)
    (hr : tickRing i s = tickRing j s) (hsv : tickSvcResp i s = tickSvcResp j s)
    (hff : ∀ a b, fifoNext i.rcfg (tickRingOp i s) a b = fifoNext i.rcfg (tickRingOp j s) a b) :
    tickNext .none i s = tickNext .none j s := by
  have e1 : ∀ a b, fifoNext i.rcfg (tickRingOp i s) a b = fifoNext j.rcfg (tickRingOp j s) a b := by
    intro a b; rw [hff]; simp [fifoNext, hhi, hlo]
  have e2 : tickTrigger i s = tickTrigger j s := by simp [tickTrigger, ht, hfd]
  unfold tickNext
  simp only [tickCtl, tickOp, hm, hbus, hsrc, hf, hvb, ht, hfd, hr, hsv, e1, e2, tickNewSession, tickFiltered, crossingNext, hx]

end Sys2Proof.Machine
end

