-- ==== Sys2Proof/Laws/Step.lean ====
section
/-! SUPPORT. What a step can do, said once, and how a run is made of steps. -/

namespace Sys2Proof.Machine

/-- A run goes on from the state a step leads to. -/
theorem run_succ {s t : State} (k : Nat) (h : step s = .next t) : Host.Core.run Sys2Proof.core (k + 1) s = Host.Core.run Sys2Proof.core k t := by
  have h' : Sys2Proof.core.step s = .next t := h
  simp only [Host.Core.run, h']

/-- Every step that answers a next state is one of three: a capture tick, a readout tick, or the reset of both domains, in the state
that fetching leaves. -/
theorem step_next {s t : State} (h : step s = .next t) :
    (∃ op inp, captureTick op inp (fetch s).2 = .next t) ∨ (∃ inp, readoutTick inp (fetch s).2 = .next t) ∨
      t = resetBoth (fetch s).2 := by
  unfold step at h
  split at h
  · rename_i c u hf
    rw [hf]
    unfold present at h
    split at h
    · rename_i i _
      cases hi : captureInputsOf i u with
      | some p => exact .inl ⟨p.1, p.2, by rw [← exec_eq_captureTick hi]; exact h⟩
      | none =>
        cases i <;> cases hi
        · cases h
        · exact .inr (.inl ⟨_, h⟩)
    · exact .inl ⟨_, _, h⟩
  · rename_i u hf; rw [hf]; exact .inl ⟨_, _, h⟩
  · rename_i u hf; rw [hf]; exact .inr (.inl ⟨_, h⟩)
  · rename_i u hf; rw [hf]; cases h; exact .inr (.inr rfl)

/-- Fetching changes nothing but the ports and the schedule. -/
theorem fetch_eq (s : State) : (fetch s).2 = { s with inputs := (fetch s).2.inputs, script := (fetch s).2.script } := by
  unfold fetch; split <;> rfl

end Sys2Proof.Machine
end

