-- ==== Sys2Proof/Laws/Timer.lean ====
section
/-! SUPPORT. The timer's parts: the counter leaves the two captures alone, and the captures leave the counter alone. -/

namespace Sys2Proof.Machine

@[simp] theorem timerCount_recordedValue (c : TriggerConfig) (t : Timer) : (timerCount c t).recordedValue = t.recordedValue := by
  unfold timerCount; (repeat' split) <;> rfl

@[simp] theorem timerCount_recordedDelta (c : TriggerConfig) (t : Timer) : (timerCount c t).recordedDelta = t.recordedDelta := by
  unfold timerCount; (repeat' split) <;> rfl

@[simp] theorem timerRecord_timer (t : Timer) : (timerRecord t).timer = t.timer := rfl

@[simp] theorem timerRecord_divCnt (t : Timer) : (timerRecord t).divCnt = t.divCnt := rfl

@[simp] theorem timerRecord_recordedValue (t : Timer) : (timerRecord t).recordedValue = ⟨t.timer, true⟩ := rfl

@[simp] theorem timerRecord_recordedDelta (t : Timer) :
    (timerRecord t).recordedDelta = ⟨t.timer - t.recordedValue.value, t.recordedValue.valid⟩ := rfl

@[simp] theorem timerInvalidate_timer (t : Timer) : (timerInvalidate t).timer = t.timer := rfl

@[simp] theorem timerInvalidate_divCnt (t : Timer) : (timerInvalidate t).divCnt = t.divCnt := rfl

@[simp] theorem timerInvalidate_recordedValue (t : Timer) :
    (timerInvalidate t).recordedValue = ⟨t.recordedValue.value, false⟩ := rfl

@[simp] theorem timerInvalidate_recordedDelta (t : Timer) :
    (timerInvalidate t).recordedDelta = ⟨t.recordedDelta.value, false⟩ := rfl

/-- The counter depends on the counter alone (R145). -/
theorem timerCount_congr (c : TriggerConfig) {t u : Timer} (h1 : t.timer = u.timer) (h2 : t.divCnt = u.divCnt) :
    (timerCount c t).timer = (timerCount c u).timer ∧ (timerCount c t).divCnt = (timerCount c u).divCnt := by
  unfold timerCount timerDue; rw [h2]; (repeat' split) <;> simp [h1]

end Sys2Proof.Machine
end

