-- ==== Sys2Proof/Tests/Slice0.lean ====
section
/-! SUPPORT. The model's own tests: what WellFormed refuses, one written-out word for every operation, single steps from the spec's
vectors (`95_test_vectors.md`), and for each statement with hypotheses a state and operands that meet them. -/

namespace Sys2Proof.Tests

open Sys2Proof.Machine

/-! ## WellFormed refuses -/

theorem test_illFormed_reservedControlWord : (Instr.ctlRsvd2 false).wellFormed = false := by decide

theorem test_illFormed_reservedMasterOp : Instr.mopRsvd7.wellFormed = false := by decide

theorem test_illFormed_reservedByteSource : (Instr.cselRsvd3 0).wellFormed = false := by decide

theorem test_illFormed_byteMatchWithReservedSource : (Instr.byteMatch 0 ⟨false, 0, 0, 0, 2⟩).wellFormed = false := by decide

theorem test_illFormed_resetPtrsAsRecordOp : (Instr.resetPtrs .record).wellFormed = false := by decide

theorem test_illFormed_popAsRecordOp : (Instr.pop .record).wellFormed = false := by decide

theorem test_illFormed_pushAsServiceOp : (Instr.push .service).wellFormed = false := by decide

theorem test_illFormed_reservedAluOp : Instr.aluRsvd9.wellFormed = false := by decide

theorem test_wellFormed_pushAsRecordOp : (Instr.push .record).wellFormed = true := by decide

/-! ## Decoding: words written out from the encoding tables (R69 to R82; MOP, CSEL2, BC22, RINGOP2 and CFG with the model's operand
bits of log entry 8) -/

theorem test_decode_ctlIdle : decode ⟨.ctl7, 0x3D⟩ = .ok (.ctlIdle 0xF true) := by decide

theorem test_decode_ctlShift : decode ⟨.ctl7, 0x41⟩ = .ok (.ctlShift true) := by decide

theorem test_decode_ctlSelectNone : decode ⟨.ctl7, 0x44⟩ = .ok .ctlSelectNone := by decide

theorem test_decode_ctlSelectAll : decode ⟨.ctl7, 0x45⟩ = .ok .ctlSelectAll := by decide

theorem test_decode_ctlRsvd2 : decode ⟨.ctl7, 0x48⟩ = .ok (.ctlRsvd2 false) := by decide

theorem test_decode_ctlRsvd3 : decode ⟨.ctl7, 0x4C⟩ = .ok (.ctlRsvd3 false) := by decide

theorem test_decode_ctlRsvd4 : decode ⟨.ctl7, 0x50⟩ = .ok (.ctlRsvd4 false) := by decide

theorem test_decode_ctlRsvd5 : decode ⟨.ctl7, 0x54⟩ = .ok (.ctlRsvd5 false) := by decide

theorem test_decode_ctlRsvd6 : decode ⟨.ctl7, 0x58⟩ = .ok (.ctlRsvd6 false) := by decide

theorem test_decode_ctlRsvd7 : decode ⟨.ctl7, 0x5C⟩ = .ok (.ctlRsvd7 false) := by decide

theorem test_decode_ctlRsvd8 : decode ⟨.ctl7, 0x60⟩ = .ok (.ctlRsvd8 false) := by decide

theorem test_decode_ctlRsvd9 : decode ⟨.ctl7, 0x64⟩ = .ok (.ctlRsvd9 false) := by decide

theorem test_decode_ctlRsvd10 : decode ⟨.ctl7, 0x68⟩ = .ok (.ctlRsvd10 false) := by decide

theorem test_decode_ctlRsvd11 : decode ⟨.ctl7, 0x6C⟩ = .ok (.ctlRsvd11 false) := by decide

theorem test_decode_ctlRsvd12 : decode ⟨.ctl7, 0x70⟩ = .ok (.ctlRsvd12 false) := by decide

theorem test_decode_ctlRsvd13 : decode ⟨.ctl7, 0x74⟩ = .ok (.ctlRsvd13 false) := by decide

theorem test_decode_ctlRsvd14 : decode ⟨.ctl7, 0x78⟩ = .ok (.ctlRsvd14 false) := by decide

theorem test_decode_ctlRsvd15 : decode ⟨.ctl7, 0x7D⟩ = .ok (.ctlRsvd15 true) := by decide

theorem test_decode_ctlHold : decode ⟨.ctl7, 0x02⟩ = .ok (.ctlHold 0 false) := by decide

theorem test_decode_ctlNibble : decode ⟨.ctl7, 0x6A⟩ = .ok (.ctlNibble 0xA false) := by decide

theorem test_decode_mopNone : decode ⟨.mop, 0⟩ = .ok .mopNone := by decide

theorem test_decode_mopSelectNone : decode ⟨.mop, 1⟩ = .ok .mopSelectNone := by decide

theorem test_decode_mopSelectAll : decode ⟨.mop, 2⟩ = .ok .mopSelectAll := by decide

theorem test_decode_mopEnable : decode ⟨.mop, 4⟩ = .ok .mopEnable := by decide

theorem test_decode_mopClearEnable : decode ⟨.mop, 6⟩ = .ok .mopClearEnable := by decide

theorem test_decode_mopRsvd7 : decode ⟨.mop, 7⟩ = .ok .mopRsvd7 := by decide

theorem test_decode_mopSelect : decode ⟨.mop, 27⟩ = .ok (.mopSelect 3) := by decide

theorem test_decode_mopWriteNibble : decode ⟨.mop, 85⟩ = .ok (.mopWriteNibble 0xA) := by decide

theorem test_decode_trigEnable : decode ⟨.treq4, 0xD⟩ = .ok (.trigEnable false true true) := by decide

theorem test_decode_trigEnableLow : decode ⟨.treq4, 0⟩ = .ok .trigEnableLow := by decide

theorem test_decode_trigClear : decode ⟨.treq4, 0x6⟩ = .ok (.trigClear true false) := by decide

theorem test_decode_trigStart : decode ⟨.treq4, 0xC⟩ = .ok (.trigStart true) := by decide

theorem test_decode_trigStop : decode ⟨.treq4, 0x8⟩ = .ok .trigStop := by decide

theorem test_decode_actNop : decode ⟨.act6, 0x20⟩ = .ok (.actNop 2) := by decide

theorem test_decode_actHalt : decode ⟨.act6, 0x13⟩ = .ok (.actHalt true false false 1) := by decide

theorem test_decode_actRecordData : decode ⟨.act6, 0x36⟩ = .ok (.actRecordData true false 3) := by decide

theorem test_decode_actRecordTime : decode ⟨.act6, 0x0C⟩ = .ok (.actRecordTime true 0) := by decide

theorem test_decode_actRecordInvalidate : decode ⟨.act6, 0x08⟩ = .ok (.actRecordInvalidate 0) := by decide

theorem test_decode_cselLane : decode ⟨.csel2, 0x4⟩ = .ok (.cselLane 1) := by decide

theorem test_decode_cselData1 : decode ⟨.csel2, 0x9⟩ = .ok (.cselData1 2) := by decide

theorem test_decode_cselRsvd2 : decode ⟨.csel2, 0xE⟩ = .ok (.cselRsvd2 3) := by decide

theorem test_decode_cselRsvd3 : decode ⟨.csel2, 0x3⟩ = .ok (.cselRsvd3 0) := by decide

theorem test_decode_byteMatch : decode ⟨.bc22, 0x9BBFF5⟩ = .ok (.byteMatch 2 ⟨true, 2, 0xFF, 0xBB, 1⟩) := by decide

theorem test_decode_actionLookup : decode ⟨.aset48, 0xE00000000408⟩ = .ok (.actionLookup #v[0, 1, 0, 2, 0, 0, 0, 0, 0, 0, 0, 0, 0, 0, 0, 7]) := by decide

theorem test_decode_access : decode ⟨.ringop2, 0⟩ = .ok (.access .service) := by decide

theorem test_decode_resetPtrs : decode ⟨.ringop2, 1⟩ = .ok (.resetPtrs .service) := by decide

theorem test_decode_push : decode ⟨.ringop2, 6⟩ = .ok (.push .record) := by decide

theorem test_decode_pop : decode ⟨.ringop2, 3⟩ = .ok (.pop .service) := by decide

theorem test_decode_retract : decode ⟨.recflag, 1⟩ = .ok .retract := by decide

theorem test_decode_write8 : decode ⟨.aluop4, 0⟩ = .ok .write8 := by decide

theorem test_decode_write16 : decode ⟨.aluop4, 1⟩ = .ok .write16 := by decide

theorem test_decode_write32 : decode ⟨.aluop4, 2⟩ = .ok .write32 := by decide

theorem test_decode_inc32 : decode ⟨.aluop4, 3⟩ = .ok .inc32 := by decide

theorem test_decode_sum32 : decode ⟨.aluop4, 4⟩ = .ok .sum32 := by decide

theorem test_decode_min32 : decode ⟨.aluop4, 5⟩ = .ok .min32 := by decide

theorem test_decode_max32 : decode ⟨.aluop4, 6⟩ = .ok .max32 := by decide

theorem test_decode_minMax16 : decode ⟨.aluop4, 7⟩ = .ok .minMax16 := by decide

theorem test_decode_inc16Add16 : decode ⟨.aluop4, 8⟩ = .ok .inc16Add16 := by decide

theorem test_decode_aluRsvd9 : decode ⟨.aluop4, 9⟩ = .ok .aluRsvd9 := by decide

theorem test_decode_aluRsvd10 : decode ⟨.aluop4, 10⟩ = .ok .aluRsvd10 := by decide

theorem test_decode_aluRsvd11 : decode ⟨.aluop4, 11⟩ = .ok .aluRsvd11 := by decide

theorem test_decode_aluRsvd12 : decode ⟨.aluop4, 12⟩ = .ok .aluRsvd12 := by decide

theorem test_decode_aluRsvd13 : decode ⟨.aluop4, 13⟩ = .ok .aluRsvd13 := by decide

theorem test_decode_aluRsvd14 : decode ⟨.aluop4, 14⟩ = .ok .aluRsvd14 := by decide

theorem test_decode_aluRsvd15 : decode ⟨.aluop4, 15⟩ = .ok .aluRsvd15 := by decide

theorem test_decode_filterMatch : decode ⟨.cfg, 0⟩ = .ok .filterMatch := by decide

theorem test_decode_filterChange : decode ⟨.cfg, 1⟩ = .ok .filterChange := by decide

theorem test_decode_valueBound : decode ⟨.cfg, 10⟩ = .ok (.valueBound true) := by decide

theorem test_decode_offsetBound : decode ⟨.cfg, 11⟩ = .ok (.offsetBound true false) := by decide

theorem test_decode_timerTick : decode ⟨.cfg, 0x0304⟩ = .ok (.timerTick 3) := by decide

theorem test_decode_timerCapture : decode ⟨.cfg, 5⟩ = .ok .timerCapture := by decide

theorem test_decode_roRequest : decode ⟨.cfg, 6⟩ = .ok .roRequest := by decide

theorem test_decode_tooWide : decode ⟨.ctl7, 0x80⟩ = .error (.tooWide .ctl7) := by decide

theorem test_decode_noSuchCode : decode ⟨.cfg, 7⟩ = .error (.noSuchCode .cfg) := by decide

/-! ## Small states -/

/-- Whether an outcome is a next state with a property. -/
def reaches (o : Host.Outcome State Fault Refusal) (p : State → Bool) : Bool :=
  match o with
  | .next t => p t
  | .fault _ => false
  | .refused _ => false

/-- Two nodes after reset. -/
def calm : State := State.resetWith 2 1

/-- `calm` with these two nodes. -/
def chained (a b : Node) : State := { calm with nodes := [a, b] }

/-- A source that presents one sample for every mux-control value. -/
def steady (l : Lanes) : Source := ⟨[], ⟨true, l⟩⟩

/-- One SELECTED node presenting `l`, the trigger running and enabled, every descriptor `d`, recording with these codes. -/
def live (l : Lanes) (d : ActionDescriptor) (recordOp : BitVec 2) (aluOp : BitVec 4) : State :=
  { State.resetWith 1 1 with
    nodes := [⟨true, true, 0, 0⟩]
    trig := ⟨true, false, true⟩
    inputs := ⟨{ CaptureInputs.quiet with
      bus := .direct ⟨false, 0, true, false⟩
      src := [steady l]
      tcfg := { CaptureInputs.quiet.tcfg with enable := true, action := Vector.replicate 8 d }
      rcfg := { CaptureInputs.quiet.rcfg with recordOp := recordOp, aluOp := aluOp } }, ReadoutInputs.quiet⟩ }

/-- A descriptor that records lane 0. -/
def recordLane0 : ActionDescriptor := ⟨false, true, false, false, 0⟩

/-- `live` before `start`, with these request bits at the port. -/
def requested (clear start : Bool) : State :=
  let s := live ⟨5, 0, 0, 0⟩ recordLane0 2 2
  { s with
    trig := ⟨true, false, false⟩
    inputs := { s.inputs with cap := { s.inputs.cap with tcfg := { s.inputs.cap.tcfg with clear := clear, start := start } } } }

/-- `calm` with this ring. -/
def withRing (r : Ring) : State := { calm with ring := r }

/-- `calm` with a service request at the port. -/
def asking (q : ServiceRequest) (r : Ring) : State :=
  { withRing r with inputs := { calm.inputs with cap := { calm.inputs.cap with svcReq := q } } }

/-! ## Single steps -/

/-- V-D5: after `CTL_SELECT_ALL` an enable selects the first node only. -/
theorem test_hold_selectsFirst :
    reaches (exec (.ctlHold 0 false) (chained ⟨true, false, 0, 0⟩ ⟨true, false, 0, 0⟩)) (fun t =>
      t.nodes == [⟨true, true, 0, 0⟩, ⟨true, false, 0, 0⟩]) = true := by decide

/-- V-D6. -/
theorem test_nibble_lowFirst :
    reaches (exec (.ctlNibble 0xF false) (chained ⟨true, true, 0, 0⟩ ⟨true, false, 0, 0⟩)) (fun t =>
      t.nodes == [⟨true, true, 0xF, 1⟩, ⟨true, false, 0, 0⟩]) = true := by decide

/-- V-D9: the nibble of the selecting word is discarded. -/
theorem test_nibble_selectingWordDiscards :
    reaches (exec (.ctlNibble 0xA false) (chained ⟨false, false, 0, 0⟩ ⟨true, false, 0x5A, 2⟩)) (fun t =>
      t.nodes == [⟨false, false, 0, 0⟩, ⟨true, true, 0, 0⟩]) = true := by decide

/-- V-D10: the ninth nibble is dropped. -/
theorem test_nibble_ninthDropped :
    nodeNext ⟨true, 0xF, true, false⟩ ⟨true, true, 0x87654321, 8⟩ = ⟨true, true, 0x87654321, 8⟩ := by decide

/-- V-D2: the last token falls off and is seen on `chain_out`. -/
theorem test_shift_tokenFallsOff :
    reaches (exec (.ctlShift false) (chained ⟨false, false, 0, 0⟩ ⟨true, false, 0, 0⟩)) (fun t =>
      t.nodes == [Node.reset, Node.reset] && t.out.chainOut == ⟨true, 0, false, true⟩) = true := by decide

/-- V-D13. -/
theorem test_reserved_keepsTokens :
    reaches (exec (.ctlRsvd2 false) (chained ⟨false, false, 0, 0⟩ ⟨true, true, 0, 0⟩)) (fun t =>
      t.nodes == [Node.reset, ⟨true, false, 0, 0⟩]) = true := by decide

/-- P1, tick 8: the master sends a nibble and counts it. -/
theorem test_writeNibble_counts :
    reaches (exec (.mopWriteNibble 0xA) { chained ⟨false, false, 0, 0⟩ ⟨true, true, 0, 0⟩ with
        master := ⟨true, 0, true, true, 0, .idle⟩ }) (fun t =>
      t.nodes == [Node.reset, ⟨true, true, 0xA, 1⟩] && t.master == ⟨true, 1, true, true, 0, .idle⟩) = true := by decide

/-- V-D12: in the tick of the time-out the master still enables the chain (R117). -/
theorem test_timeOut_keepsEnable :
    reaches (captureTick .none calm.inputs.cap { calm with master := ⟨true, 3, false, false, 1, .wait⟩ }) (fun t =>
      t.master == ⟨true, 3, false, true, 1, .timedOut⟩ && t.out.chainOut == ⟨false, 0, true, false⟩) = true := by decide

/-- R109: `MOP_NONE` presented after a time-out goes by `m_enable`, and leaves the responses. -/
theorem test_timeOut_mopNoneHolds :
    reaches (exec .mopNone { calm with master := ⟨true, 3, false, true, 1, .timedOut⟩ }) (fun t =>
      t.master == ⟨true, 3, false, true, 1, .timedOut⟩ && t.out.chainOut == ⟨false, 0, true, false⟩) = true := by decide

/-- R184, R188: following the time-out up, the master drops `enable` with `CTL_SELECT_NONE`. -/
theorem test_timeOut_thenDropsEnable :
    reaches (captureTick .none calm.inputs.cap { calm with master := ⟨true, 3, false, true, 1, .timedOut⟩ }) (fun t =>
      t.master == ⟨false, 0, false, true, 1, .idle⟩ && t.out.chainOut == ⟨true, 1, false, false⟩) = true := by decide

/-- V-B1, V-B3, V-B4, V-B6. -/
theorem test_byteMatch_vectors :
    byteMatches 0 ⟨true, 0x11223344, 0xAABBCCDD, 0, 0⟩ ⟨false, 1, 0xF0, 0x3F, 0⟩ = true ∧
      byteMatches 0 ⟨true, 0x11223344, 0xAABBCCDD, 0, 0⟩ ⟨false, 6, 0xFF, 0xBB, 0⟩ = true ∧
      byteMatches 0 ⟨true, 0x11223344, 0xAABBCCDD, 0, 0⟩ ⟨true, 2, 0xFF, 0xBB, 1⟩ = true ∧
      byteMatches 0 Sample4.zero ⟨false, 0, 0, 0, 0⟩ = false := by decide

/-- V-T1: nothing fires in the start tick. -/
theorem test_start_firesNothing :
    reaches (exec (.trigEnable false true false) { live ⟨5, 0, 0, 0⟩ recordLane0 2 2 with trig := ⟨false, false, false⟩ }) (fun t =>
      t.trig == ⟨true, false, true⟩ && t.ring == Ring.reset) = true := by decide

/-- V-T5: halt beats start. -/
theorem test_halt_beatsStart :
    reaches (exec (.actHalt false false false 0) { requested false true with trig := ⟨true, false, true⟩ }) (fun t =>
      t.trig == ⟨true, false, false⟩) = true := by decide

/-- V-T10: the word 0 drops `enable`, which ends the session; nothing fires in that tick. -/
theorem test_enableLow_endsTheSession :
    reaches (exec .trigEnableLow (live ⟨5, 0, 0, 0⟩ recordLane0 2 2)) (fun t =>
      t.trig == ⟨false, false, false⟩ && t.ring == Ring.reset) = true := by decide

/-- V-T12: `record_invalidate` beside `record_data` retracts and pushes nothing. -/
theorem test_recordData_withInvalidate :
    reaches (exec (.actRecordData false true 0) { live ⟨5, 0, 0, 0⟩ recordLane0 2 2 with ring := ⟨[(0, 9)], 1, 0, true⟩ }) (fun t =>
      t.ring == ⟨[(0, 9)], 0, 0, false⟩) = true := by decide

/-- P2, tick 6: lane 1 is pushed and the trigger halts. -/
theorem test_halt_recordsLane1 :
    reaches (exec (.actHalt true false false 1) (live ⟨0xAA, 0xDEAD0002, 0, 0⟩ ActionDescriptor.nop 2 2)) (fun t =>
      t.ring == ⟨[(0, 0xDEAD0002)], 1, 0, true⟩ && !t.trig.running) = true := by decide

/-- V-T16: the delta is modulo 2^32. -/
theorem test_timerCapture_wraps :
    reaches (exec .timerCapture { live ⟨0, 0, 0, 0⟩ ActionDescriptor.nop 2 2 with
        timer := ⟨0x10, 0, ⟨0xFFFFFFF0, true⟩, ⟨0, false⟩⟩ }) (fun t =>
      t.timer == ⟨0x11, 0, ⟨0x10, true⟩, ⟨0x20, true⟩⟩) = true := by decide

/-- V-T17: the compare is at least. -/
theorem test_timerTick_loweredRate :
    reaches (exec (.timerTick 5) { calm with timer := ⟨7, 200, ⟨0, false⟩, ⟨0, false⟩⟩ }) (fun t =>
      t.timer.timer == 8 && t.timer.divCnt == 0) = true := by decide

/-- V-F5. -/
theorem test_filterMatch_maskedLane :
    filterAdmits ⟨⟨0xFF, 0, 0, 0⟩, ⟨0x12, 0, 0, 0⟩, false⟩ FilterState.reset ⟨true, 0xABCD0012, 0, 0, 0⟩ = true ∧
      filterAdmits ⟨⟨0xFF, 0, 0, 0⟩, ⟨0x12, 0, 0, 0⟩, false⟩ FilterState.reset ⟨true, 0xABCD0013, 0, 0, 0⟩ = false := by decide

/-- V-V1, V-V2, V-V3, V-V6. -/
theorem test_valueBound_vectors :
    valueBoundResult ⟨true, 0x1000, 4, 8, true⟩ 0x20 0x1234 = 0x23 ∧ valueBoundResult ⟨true, 0x1000, 4, 8, true⟩ 0x23 0x2FF5 = 0xFF ∧
      valueBoundResult ⟨true, 0x1000, 4, 8, false⟩ 0x23 0x2FF5 = 0x23 ∧ valueBoundResult ⟨true, 0, 0, 0, true⟩ 5 9 = 5 := by decide

/-- V-O1, V-O3. -/
theorem test_offsetBound_vectors :
    offsetBoundResult ⟨false, 100, 3, false⟩ ⟨131, 0, 0, 0⟩ = 3 ∧ offsetBoundResult ⟨false, 100, 3, false⟩ ⟨99, 0, 0, 0⟩ = 0 ∧
      offsetBoundResult ⟨false, 100, 3, false⟩ ⟨16484, 0, 0, 0⟩ = 2047 ∧
      offsetBoundResult ⟨false, 0, 0, false⟩ ⟨2048, 0, 0, 0⟩ = 2047 := by decide

/-- V-L1 to V-L9. -/
theorem test_alu_words :
    alu 0 ⟨0, 0x12345678, 1⟩ 0xDEADBEEF = 0x78 ∧ alu 0 ⟨1, 0x12345678, 1⟩ 0xDEADBEEF = 0x5678 ∧
      alu 0 ⟨2, 0x12345678, 1⟩ 0xDEADBEEF = 0x12345678 ∧ alu 0 ⟨3, 0, 3⟩ 5 = 8 ∧ alu 0 ⟨4, 2, 1⟩ 0xFFFFFFFF = 1 ∧
      alu 0 ⟨5, 0x80000000, 1⟩ 1 = 1 := by decide

/-- V-L12, V-L14, V-L17, V-L18. -/
theorem test_alu_halves :
    alu 0 ⟨6, 0x80000000, 1⟩ 0x7FFFFFFF = 0x80000000 ∧ alu 0 ⟨7, 0x00090001, 1⟩ 0x00070003 = 0x00090001 ∧
      alu 0 ⟨8, 1, 1⟩ 0xFFFFFFFF = 0 ∧ alu 0 ⟨8, 0xABCD0002, 1⟩ 0x0001FFFF = 0x00030000 := by decide

/-- V-R2. -/
theorem test_pop_last :
    reaches (exec (.pop .service) (withRing ⟨[(0, 0xCAFE0001)], 1, 0, true⟩)) (fun t =>
      t.ring == ⟨[(0, 0xCAFE0001)], 1, 1, false⟩ && t.svcResp == ⟨true, true, 0xCAFE0001⟩) = true := by decide

/-- V-R3. -/
theorem test_pop_empty :
    reaches (exec (.pop .service) (withRing ⟨[(0, 0xCAFE0001)], 1, 1, false⟩)) (fun t =>
      t.svcResp == ⟨true, false, 0⟩ && t.fifo.underflow) = true := by decide

/-- V-R4: the write at address 2047 carries into the wrap bit. -/
theorem test_push_lastSlot :
    pushRing 0 ⟨2, 1, 1⟩ ⟨[(2046, 7)], 0x7FF, 0x7FE, true⟩ = ⟨[(2046, 7), (2047, 1)], 0x800, 0x7FE, true⟩ := by decide

/-- V-R5: a push to a full buffer. -/
theorem test_push_full : pushRing 0 ⟨2, 5, 1⟩ ⟨[(0, 9)], 0x800, 0, true⟩ = ⟨[(0, 9)], 0x800, 0, true⟩ := by decide

/-- V-R8, V-R9: a retract takes the last push back once. -/
theorem test_retract_once :
    retractRing 2 ⟨[(0, 1), (1, 2)], 2, 0, true⟩ = ⟨[(0, 1), (1, 2)], 1, 0, false⟩ ∧
      retractRing 2 ⟨[(0, 1), (1, 2)], 1, 0, false⟩ = ⟨[(0, 1), (1, 2)], 1, 0, false⟩ := by decide

/-- V-R11: a service write answers with the word before it. -/
theorem test_access_writes :
    reaches (exec (.access .service) (asking ⟨true, 0, 5, true, 4, 5, 1⟩ ⟨[(5, 0x10)], 0, 0, false⟩)) (fun t =>
      t.ring.mem == [(5, 0x15)] && t.svcResp == ⟨true, true, 0x10⟩) = true := by decide

/-- V-R12. -/
theorem test_resetPtrs_emptied :
    reaches (exec (.resetPtrs .service) (withRing ⟨[], 0x805, 0x7FF, false⟩)) (fun t =>
      t.ring == Ring.reset && t.svcResp == ⟨true, false, 0⟩ && t.fifo == ⟨0, false, true, false, false⟩) = true := by decide

/-- V-R15: a recorded sample increments its bucket. -/
theorem test_recordAccess_increments :
    reaches (exec (.offsetBound true true) { live ⟨0, 9, 0, 0⟩ recordLane0 0 3 with ring := ⟨[(9, 41)], 0, 0, false⟩ }) (fun t =>
      t.ring == ⟨[(9, 42)], 0, 0, false⟩) = true := by decide

/-- The readout port accepts a request (R63). -/
theorem test_roRequest_fillsSlot :
    reaches (exec .roRequest calm) (fun t => t.readout == ⟨true, ⟨false, 0⟩, false⟩ && t.xing == ⟨true, false, .none⟩) = true := by decide

/-- The fixed words of the table run as the first operation after reset. -/
theorem test_step_runsTableWord :
    step (State.reset.withFetchWord 8 0x45) = exec .ctlSelectAll State.reset := rfl

/-! ## Hypotheses that are met: for each statement with hypotheses, states and operands that meet them, clause by clause -/

theorem calm_portsDefined : PortsDefined calm := ⟨rfl, by decide⟩

theorem live_portsDefined (l : Lanes) (d : ActionDescriptor) (recordOp : BitVec 2) (aluOp : BitVec 4) :
    PortsDefined (live l d recordOp aluOp) := ⟨rfl, fun h => Bool.noConfusion h⟩

theorem meets_EncodeDecodeIsIdentity : decode ⟨.aset48, 2 ^ 48 - 1⟩ = .ok (.actionLookup (Vector.replicate 16 7)) := by decide

/-- `calm` with one entry scheduled. -/
def scheduled (a : Action) : State := { calm with script := [⟨calm.inputs, a⟩] }

theorem meets_StepRunsTheScheduledOperation :
    ((scheduled (.present ⟨.ctl7, 0x45⟩)).script = [⟨calm.inputs, .present ⟨.ctl7, 0x45⟩⟩] ∧ decode ⟨.ctl7, 0x45⟩ = .ok .ctlSelectAll) ∧
      ((scheduled (.present ⟨.cfg, 7⟩)).script = [⟨calm.inputs, .present ⟨.cfg, 7⟩⟩] ∧ decode ⟨.cfg, 7⟩ = .error (.noSuchCode .cfg)) ∧
      (scheduled .captureTick).script = [⟨calm.inputs, .captureTick⟩] ∧ (scheduled .readoutTick).script = [⟨calm.inputs, .readoutTick⟩] ∧
      (scheduled .resetBoth).script = [⟨calm.inputs, .resetBoth⟩] ∧ calm.script = [] := by decide

theorem meets_QuietMachineOnlyCounts : BusDriver.direct CtlWord.zero = .master ∨ BusDriver.direct CtlWord.zero = .direct CtlWord.zero :=
  .inr rfl

theorem meets_IdleAndReservedWordsDeselect :
    PortsDefined calm ∧ deselectingWord (.ctlIdle 0xF true) = some ⟨false, 0xF, false, true⟩ ∧
      deselectingWord (.ctlRsvd15 true) = some ⟨true, 15, false, true⟩ := ⟨calm_portsDefined, rfl, rfl⟩

theorem meets_ShiftMovesEveryToken : PortsDefined calm := calm_portsDefined

theorem meets_BroadcastSetsEveryToken :
    PortsDefined calm ∧ Instr.ctlSelectAll = (if true then .ctlSelectAll else .ctlSelectNone) := ⟨calm_portsDefined, rfl⟩

theorem meets_EnableSelectsTheFirstTokenHolder :
    let s := chained Node.reset ⟨true, false, 0x5A, 2⟩
    PortsDefined s ∧ s.nodes = [Node.reset] ++ ⟨true, false, 0x5A, 2⟩ :: [] ∧ (∀ m ∈ [Node.reset], m.token = false) :=
  ⟨calm_portsDefined, rfl, by decide⟩

theorem meets_HoldKeepsTheSelectedNode :
    let s := chained Node.reset ⟨true, true, 0x5A, 2⟩
    PortsDefined s ∧ s.nodes = [Node.reset] ++ ⟨true, true, 0x5A, 2⟩ :: [] ∧ (∀ m ∈ [Node.reset], m.token = false) :=
  ⟨calm_portsDefined, rfl, by decide⟩

/-- Both clauses: the index 7 takes the eighth nibble, the index 8 drops the ninth. -/
theorem meets_NibbleFillsTheMuxControl :
    let s := chained Node.reset ⟨true, true, 0x07654321, 7⟩
    let u := chained Node.reset ⟨true, true, 0x87654321, 8⟩
    (PortsDefined s ∧ s.nodes = [Node.reset] ++ ⟨true, true, 0x07654321, 7⟩ :: [] ∧ (7 : BitVec 4).toNat < 8) ∧
      PortsDefined u ∧ u.nodes = [Node.reset] ++ ⟨true, true, 0x87654321, 8⟩ :: [] ∧ 8 ≤ (8 : BitVec 4).toNat :=
  ⟨⟨calm_portsDefined, rfl, by decide⟩, calm_portsDefined, rfl, by decide⟩

theorem meets_UnclaimedEnablePassesThrough : PortsDefined calm ∧ ∀ m ∈ calm.nodes, m.token = false := ⟨calm_portsDefined, by decide⟩

theorem meets_ResponseIsTheSelectedNodesSample :
    let s := live ⟨5, 0, 0, 0⟩ recordLane0 2 2
    (s.inputs.cap.reset = false ∧ captureTick .none s.inputs.cap s = .next (tickNext .none s.inputs.cap s) ∧
        s.nodes = [] ++ ⟨true, true, 0, 0⟩ :: []) ∧
      captureTick .none calm.inputs.cap calm = .next (tickNext .none calm.inputs.cap calm) ∧ ∀ m ∈ calm.nodes, m.selected = false :=
  ⟨⟨rfl, rfl, rfl⟩, rfl, by decide⟩

theorem meets_AtMostOneNodeIsSelectedAfterATick :
    let s := chained ⟨true, true, 0, 0⟩ ⟨false, true, 0, 0⟩
    captureTick .none (busInputs wordHold s) s = .next (tickNext .none (busInputs wordHold s) s) := rfl

/-- `calm` with this master. -/
def mastered (m : Master) : State := { calm with master := m }

/-- `calm` after a select that timed out, in a tick in which the master follows it up or not. -/
def timedOut (follows : Bool) : State :=
  { mastered ⟨true, 0, false, true, 1, .timedOut⟩ with inputs := { calm.inputs with cap := { calm.inputs.cap with masterFollows := follows } } }

/-- With the last op answered, and with it timed out, followed up and not. -/
theorem meets_OneWordMasterOps :
    (PortsDefined calm ∧ calm.master.ready = true ∧ calm.inputs.cap.bus = .master ∧ calm.master.seq = .idle) ∧
      (PortsDefined (timedOut true) ∧ (timedOut true).master.ready = true ∧ (timedOut true).inputs.cap.bus = .master ∧
        (timedOut true).master.seq = .timedOut ∧ (timedOut true).inputs.cap.masterFollows = true) ∧
      PortsDefined (timedOut false) ∧ (timedOut false).master.ready = true ∧ (timedOut false).inputs.cap.bus = .master ∧
        (timedOut false).inputs.cap.masterFollows = false :=
  ⟨⟨calm_portsDefined, by decide⟩, ⟨⟨rfl, by decide⟩, by decide⟩, ⟨rfl, by decide⟩, by decide⟩

/-- Enabled with the count at 254 and at 255, and not enabled. -/
theorem meets_WriteNibbleEmitsAndCounts :
    (PortsDefined (mastered ⟨true, 254, true, true, 0, .idle⟩) ∧ (mastered ⟨true, 254, true, true, 0, .idle⟩).master.ready = true) ∧
      (PortsDefined (mastered ⟨true, 255, true, true, 0, .idle⟩) ∧ (mastered ⟨true, 255, true, true, 0, .idle⟩).master.enable = true) ∧
      calm.master.ready = true ∧ calm.master.enable = false :=
  ⟨⟨calm_portsDefined, rfl⟩, ⟨calm_portsDefined, rfl⟩, rfl, rfl⟩

theorem meets_SelectAndEnableBegin : PortsDefined calm ∧ calm.master.ready = true := ⟨calm_portsDefined, rfl⟩

/-- Answered, at the time-out, and before it. -/
theorem meets_WaitingMasterEndsAnsweredOrTimedOut :
    let answered := { mastered ⟨true, 0, false, false, 0, .wait⟩ with nodes := [⟨true, true, 0, 0⟩] }
    let late := mastered ⟨true, 0, false, false, 1, .wait⟩
    let early := mastered ⟨true, 0, false, false, 0, .wait⟩
    (PortsDefined answered ∧ answered.inputs.cap.bus = .master ∧ answered.master.seq = .wait ∧ chainSelected answered.nodes = true) ∧
      (PortsDefined late ∧ late.master.seq = .wait ∧ late.master.wd = late.params.masterTimeout) ∧
      PortsDefined early ∧ early.master.seq = .wait ∧ chainSelected early.nodes = false ∧ early.master.wd ≠ early.params.masterTimeout :=
  ⟨⟨calm_portsDefined, rfl, rfl, by decide⟩, ⟨calm_portsDefined, rfl, by decide⟩, calm_portsDefined, rfl, by decide, by decide⟩

theorem meets_SelectKSelectsExactlyNodeK :
    let s : State := { calm with script := ⟨calm.inputs, .present ⟨.mop, 3 + 8 * 1⟩⟩ :: (List.replicate (1 + 2) ⟨calm.inputs, .captureTick⟩ ++ []) }
    s.master.ready = true ∧
      s.script = ⟨calm.inputs, .present ⟨.mop, 3 + 8 * 1⟩⟩ :: (List.replicate (1 + 2) ⟨calm.inputs, .captureTick⟩ ++ []) ∧
      calm.inputs.cap.reset = false ∧ calm.inputs.cap.bus = .master ∧ calm.inputs.cap.svcReq.valid = false := by decide

theorem meets_RequestWordsSetTheTriggerState : PortsDefined (live ⟨5, 0, 0, 0⟩ recordLane0 2 2) := live_portsDefined _ _ _ _

theorem meets_ClearZeroesTheTimer : PortsDefined (live ⟨5, 0, 0, 0⟩ recordLane0 2 2) := live_portsDefined _ _ _ _

theorem meets_StartBeginsASession : PortsDefined calm ∧ calm.trig.running = false := ⟨calm_portsDefined, rfl⟩

/-- An active tick: the hypotheses of the statements about a descriptor that fires. -/
theorem live_active (l : Lanes) (d : ActionDescriptor) (recordOp : BitVec 2) (aluOp : BitVec 4) :
    let s := live l d recordOp aluOp
    PortsDefined s ∧ triggerActive s.trig s.inputs.cap.tcfg = true := ⟨live_portsDefined _ _ _ _, rfl⟩

/-- Pushing with room, combining at an address, and retracting. -/
theorem meets_HaltStopsTheTrigger :
    let s := live ⟨5, 0, 0, 0⟩ recordLane0 2 8
    let u := live ⟨5, 0, 0, 0⟩ recordLane0 0 8
    let r := { live ⟨5, 0, 0, 0⟩ recordLane0 2 2 with ring := ⟨[(0, 9)], 1, 0, true⟩ }
    (PortsDefined s ∧ triggerActive s.trig s.inputs.cap.tcfg = true ∧ (tickBounded s.inputs.cap s).valid = true ∧
        s.inputs.cap.rcfg.aluOp.toNat ≤ 8 ∧ s.inputs.cap.rcfg.recordOp = 2 ∧ s.ring.occ ≠ 2048) ∧
      (PortsDefined u ∧ triggerActive u.trig u.inputs.cap.tcfg = true ∧ (tickBounded u.inputs.cap u).valid = true ∧
        u.inputs.cap.rcfg.aluOp.toNat ≤ 8 ∧ u.inputs.cap.rcfg.recordOp = 0) ∧
      PortsDefined r ∧ triggerActive r.trig r.inputs.cap.tcfg = true ∧ r.inputs.cap.rcfg.recordOp = 2 ∧ r.ring.lastPushLive = true :=
  ⟨⟨live_portsDefined _ _ _ _, by decide⟩, ⟨live_portsDefined _ _ _ _, by decide⟩, live_portsDefined _ _ _ _, by decide⟩

theorem meets_RecordTimeCapturesTheTimer :
    let s := live ⟨5, 0, 0, 0⟩ recordLane0 2 2
    PortsDefined s ∧ triggerActive s.trig s.inputs.cap.tcfg = true := live_active _ _ _ _

/-- Full, and with one slot of room. -/
theorem meets_RecordDataPushesTheLane :
    let full := { live ⟨5, 0, 0, 0⟩ recordLane0 2 2 with ring := ⟨[], 0x800, 0, true⟩ }
    let room := { live ⟨5, 0, 0, 0⟩ recordLane0 2 8 with ring := ⟨[], 0x7FF, 0, true⟩ }
    (PortsDefined full ∧ triggerActive full.trig full.inputs.cap.tcfg = true ∧ (tickBounded full.inputs.cap full).valid = true ∧
        full.inputs.cap.rcfg.recordOp = 2 ∧ full.inputs.cap.rcfg.aluOp.toNat ≤ 8 ∧ full.ring.occ = 2048) ∧
      PortsDefined room ∧ triggerActive room.trig room.inputs.cap.tcfg = true ∧ (tickBounded room.inputs.cap room).valid = true ∧
        room.inputs.cap.rcfg.recordOp = 2 ∧ room.inputs.cap.rcfg.aluOp.toNat ≤ 8 ∧ room.ring.occ ≠ 2048 :=
  ⟨⟨live_portsDefined _ _ _ _, by decide⟩, live_portsDefined _ _ _ _, by decide⟩

theorem meets_RecordDataAccumulatesAtTheOffset :
    let s := live ⟨5, 0, 0, 0⟩ recordLane0 0 3
    PortsDefined s ∧ triggerActive s.trig s.inputs.cap.tcfg = true ∧ (tickBounded s.inputs.cap s).valid = true ∧
      s.inputs.cap.rcfg.recordOp = 0 ∧ s.inputs.cap.rcfg.aluOp.toNat ≤ 8 := ⟨live_portsDefined _ _ _ _, by decide⟩

theorem meets_RecordInvalidateRetracts :
    let s := { live ⟨5, 0, 0, 0⟩ recordLane0 2 2 with ring := ⟨[(0, 9)], 1, 0, true⟩ }
    PortsDefined s ∧ triggerActive s.trig s.inputs.cap.tcfg = true ∧ s.inputs.cap.rcfg.recordOp = 2 ∧ s.ring.lastPushLive = true :=
  ⟨live_portsDefined _ _ _ _, by decide⟩

/-- Both record ops that record nothing, and an invalid sample. -/
theorem meets_NothingIsRecordedWithoutASampleOrAMode :
    let s := live ⟨5, 0, 0, 0⟩ recordLane0 1 2
    let v := live ⟨5, 0, 0, 0⟩ recordLane0 3 2
    let u := { live ⟨5, 0, 0, 0⟩ recordLane0 2 2 with nodes := [Node.reset] }
    (PortsDefined s ∧ s.inputs.cap.rcfg.recordOp ≠ 2 ∧ s.inputs.cap.rcfg.recordOp ≠ 0 ∧ (serviceRequest s.xing s.inputs.cap).valid = false) ∧
      (PortsDefined v ∧ v.inputs.cap.rcfg.recordOp ≠ 2 ∧ v.inputs.cap.rcfg.recordOp ≠ 0 ∧
        (serviceRequest v.xing v.inputs.cap).valid = false) ∧
      PortsDefined u ∧ (tickBounded u.inputs.cap u).valid = false ∧ (serviceRequest u.xing u.inputs.cap).valid = false :=
  ⟨⟨live_portsDefined _ _ _ _, by decide⟩, ⟨live_portsDefined _ _ _ _, by decide⟩, live_portsDefined _ _ _ _, by decide⟩

/-- Neither `clear` nor a start; `clear`; a session begins. -/
theorem meets_NothingFiresWithoutAnActiveFlag :
    (PortsDefined calm ∧ triggerActive calm.trig calm.inputs.cap.tcfg = false ∧ (serviceRequest calm.xing calm.inputs.cap).valid = false ∧
        calm.inputs.cap.tcfg.clear = false ∧ (tickTrigger calm.inputs.cap calm).running = false) ∧
      (PortsDefined (requested true false) ∧ (requested true false).inputs.cap.tcfg.clear = true ∧
        triggerActive (requested true false).trig (requested true false).inputs.cap.tcfg = false) ∧
      PortsDefined (requested false true) ∧ triggerActive (requested false true).trig (requested false true).inputs.cap.tcfg = false ∧
        (requested false true).trig.running = false ∧ (tickTrigger (requested false true).inputs.cap (requested false true)).running = true :=
  ⟨⟨calm_portsDefined, by decide⟩, ⟨⟨rfl, by decide⟩, by decide⟩, ⟨rfl, by decide⟩, by decide⟩

/-- A valid sample; an invalid one that is ignored; an invalid one that is not. -/
theorem meets_ByteMatchIsTheMaskedComparison :
    let bc : ByteCondition := ⟨false, 7, 0xFF, 0, 1⟩
    let any : ByteCondition := ⟨true, 0, 0xFF, 0, 0⟩
    (⟨true, Lanes.zero⟩ : Sample4).valid = true ∧ any.ignoreValid = true ∧ Sample4.zero.valid = false ∧ bc.ignoreValid = false := by
  decide

theorem meets_ConditionsAndActionSetDecideTheDescriptor :
    let s := live ⟨5, 0, 0, 0⟩ recordLane0 2 2
    (PortsDefined s ∧ triggerActive s.trig s.inputs.cap.tcfg = true) ∧ (⟨false, 0, 0xFF, 5, 1⟩ : ByteCondition).conditionSelect.toNat < 2 :=
  ⟨live_active _ _ _ _, by decide⟩

theorem meets_ReservedByteSourceRunsOn : PortsDefined (live ⟨5, 0, 0, 0⟩ recordLane0 2 2) := live_portsDefined _ _ _ _

/-- A read, and a write with the last defined ALU op. -/
theorem meets_ServiceAccessReadsAndWrites :
    let s := asking ⟨false, 0, 5, false, 0, 0, 0⟩ Ring.reset
    let u := asking ⟨false, 0, 2047, true, 8, 1, 1⟩ Ring.reset
    (s.inputs.cap.reset = false ∧ ServiceFree s.inputs.cap s ∧ s.inputs.cap.svcReq.writeFlag = false) ∧
      u.inputs.cap.reset = false ∧ ServiceFree u.inputs.cap u ∧ u.inputs.cap.svcReq.writeFlag = true ∧ u.inputs.cap.svcReq.aluOp.toNat ≤ 8 :=
  ⟨⟨rfl, ⟨by decide, by decide⟩, rfl⟩, rfl, ⟨by decide, by decide⟩, rfl, by decide⟩

theorem meets_ResetPtrsEmptiesTheBuffer :
    let s := withRing ⟨[], 0x805, 0x7FF, false⟩
    s.inputs.cap.reset = false ∧ ServiceFree s.inputs.cap s := ⟨rfl, by decide, by decide⟩

/-- Empty, holding one word, and full. -/
theorem meets_PopReturnsTheOldestWord :
    let s := withRing ⟨[(0, 7)], 1, 0, true⟩
    let u := withRing ⟨[], 0x800, 0, true⟩
    (calm.inputs.cap.reset = false ∧ ServiceFree calm.inputs.cap calm ∧ calm.ring.occ = 0) ∧
      (ServiceFree s.inputs.cap s ∧ s.ring.occ ≠ 0) ∧ ServiceFree u.inputs.cap u ∧ u.ring.occ ≠ 0 :=
  ⟨⟨rfl, ⟨by decide, by decide⟩, by decide⟩, ⟨⟨by decide, by decide⟩, by decide⟩, ⟨by decide, by decide⟩, by decide⟩

/-- With room, full, and without a service request. -/
theorem meets_RecordOpChoosesPushOrAccess :
    let s := live ⟨5, 0, 0, 0⟩ recordLane0 2 8
    let full := { live ⟨5, 0, 0, 0⟩ recordLane0 2 8 with ring := ⟨[], 0x800, 0, true⟩ }
    (PortsDefined s ∧ (tickFired s.inputs.cap s).data = true ∧ s.inputs.cap.rcfg.aluOp.toNat ≤ 8 ∧ s.ring.occ ≠ 2048 ∧
        (serviceRequest s.xing s.inputs.cap).valid = false) ∧
      PortsDefined full ∧ (tickFired full.inputs.cap full).data = true ∧ full.ring.occ = 2048 :=
  ⟨⟨live_portsDefined _ _ _ _, by decide⟩, live_portsDefined _ _ _ _, by decide⟩

/-- Granted, and against a record request. -/
theorem meets_ServicePushIsRefusedOnlyWhenGranted :
    let s := live ⟨5, 0, 0, 0⟩ recordLane0 2 2
    (calm.inputs.cap.reset = false ∧ calm.xing.presents calm.inputs.cap.xPresent = false ∧ (tickRecord calm.inputs.cap calm).valid = false) ∧
      s.inputs.cap.reset = false ∧ s.xing.presents s.inputs.cap.xPresent = false ∧ (tickRecord s.inputs.cap s).valid = true := by decide

/-- A service write, a recorded access and a push. -/
theorem meets_AluOpsCombineTheStoredWord :
    let svc := asking ⟨true, 0, 5, true, 0, 6, 7⟩ Ring.reset
    let acc := live ⟨5, 0, 0, 0⟩ recordLane0 0 0
    let psh := { live ⟨5, 0, 0, 0⟩ recordLane0 2 0 with ring := ⟨[], 0x7FF, 0, true⟩ }
    (PortsDefined svc ∧ StoresWith (tickRingOp svc.inputs.cap svc) svc.ring 5 ⟨0, 6, 7⟩) ∧
      (PortsDefined acc ∧ StoresWith (tickRingOp acc.inputs.cap acc) acc.ring 5 ⟨0, 5, 1⟩) ∧
      PortsDefined psh ∧ StoresWith (tickRingOp psh.inputs.cap psh) psh.ring 2047 ⟨0, 5, 1⟩ :=
  ⟨⟨⟨rfl, by decide⟩, .inl (by decide)⟩, ⟨live_portsDefined _ _ _ _, .inl (by decide)⟩, live_portsDefined _ _ _ _,
    .inr (by decide)⟩

theorem meets_ReservedAluOpsRunOn :
    let s := live ⟨5, 0, 0, 0⟩ recordLane0 0 0
    PortsDefined s ∧ StoresWith (tickRingOp s.inputs.cap s) s.ring 5 ⟨0, 5, 1⟩ ∧ reservedAluCode .aluRsvd15 = some 15 :=
  ⟨live_portsDefined _ _ _ _, .inl (by decide), rfl⟩

theorem meets_AluOpsMatterOnlyToAStore :
    PortsDefined calm ∧ captureInputsOf .aluRsvd15 calm = some (.none, aluInputs 15 calm) ∧
      storeAddress (tickRingOp calm.inputs.cap calm) calm.ring = .none := ⟨calm_portsDefined, rfl, by decide⟩

theorem meets_FifoStatusAfterEveryTick :
    let s := { live ⟨5, 0, 0, 0⟩ recordLane0 2 2 with ring := ⟨[], 0x800, 0, true⟩ }
    s.inputs.cap.reset = false ∧ captureTick .none s.inputs.cap s = .next (tickNext .none s.inputs.cap s) := ⟨rfl, rfl⟩

theorem meets_StatusFlagsExcludeOneAnother :
    let s := { live ⟨5, 0, 0, 0⟩ recordLane0 2 2 with ring := ⟨[], 0x800, 0, true⟩ }
    ringOk s.ring = true ∧ s.inputs.cap.reset = false ∧ captureTick .none s.inputs.cap s = .next (tickNext .none s.inputs.cap s) :=
  ⟨by decide, rfl, rfl⟩

/-- An empty buffer, also away from the start of the store, and a full load. -/
theorem meets_PushedWordsPopInOrder :
    Ring.occ ⟨[], 0x7FF, 0x7FF, false⟩ = 0 ∧ (List.replicate 2048 (0 : Word)).length ≤ 2048 ∧
      (List.replicate 2048 (0 : Word)).length = 2048 :=
  ⟨by decide, Nat.le_of_eq List.length_replicate, List.length_replicate⟩

theorem meets_OperationsKeepWhatTheyDoNotWrite :
    let s := live ⟨5, 0, 0, 0⟩ recordLane0 2 2
    captureInputsOf .filterMatch s = some (.none, filterModeInputs false s) ∧ (filterModeInputs false s).reset = false ∧
      exec .filterMatch s = .next (tickNext .none (filterModeInputs false s) s) := ⟨rfl, rfl, rfl⟩

theorem meets_FilterAdmitsAndRemembers : PortsDefined (live ⟨5, 0, 0, 0⟩ recordLane0 2 2) := live_portsDefined _ _ _ _

/-- No history, and a history other than A. -/
theorem meets_DuplicateSampleIsDropped :
    let ones : Lanes := ⟨0xFFFFFFFF, 0xFFFFFFFF, 0xFFFFFFFF, 0xFFFFFFFF⟩
    let c : FilterConfig := ⟨ones, Lanes.zero, true⟩
    c.acceptUnchanging = true ∧ c.mask = ⟨0xFFFFFFFF, 0xFFFFFFFF, 0xFFFFFFFF, 0xFFFFFFFF⟩ ∧ (⟨1, 0, 0, 0⟩ : Lanes) ≠ ⟨2, 0, 0, 0⟩ ∧
      FilterState.reset.prevValid = false ∧ (⟨⟨9, 0, 0, 0⟩, true⟩ : FilterState).prev ≠ ⟨1, 0, 0, 0⟩ := by decide

/-- A valid and an invalid filtered sample, and ValueBound not enabled. -/
theorem meets_ValueBoundTracksTheReduction :
    let s := live ⟨5, 0, 0, 0⟩ recordLane0 2 2
    (PortsDefined s ∧ (tickFiltered s.inputs.cap s).valid = true) ∧ (PortsDefined calm ∧ (tickFiltered calm.inputs.cap calm).valid = false) ∧
      s.inputs.cap.reset = false ∧ s.inputs.cap.rcfg.vb.enable = false ∧
        captureTick .none s.inputs.cap s = .next (tickNext .none s.inputs.cap s) :=
  ⟨⟨live_portsDefined _ _ _ _, by decide⟩, ⟨calm_portsDefined, by decide⟩, rfl, rfl, rfl⟩

theorem meets_OffsetBoundAddressesTheBucket :
    let s := live ⟨5, 0, 0, 0⟩ recordLane0 0 8
    (PortsDefined s ∧ (tickFired s.inputs.cap s).data = true ∧ s.inputs.cap.rcfg.recordOp = 0 ∧ s.inputs.cap.rcfg.aluOp.toNat ≤ 8) ∧
      PortsDefined calm ∧ (tickFired calm.inputs.cap calm).data = false :=
  ⟨⟨live_portsDefined _ _ _ _, by decide⟩, calm_portsDefined, by decide⟩

/-- `calm` with a prescaler count and `clear` as given. -/
def counting (divCnt : Byte) (clear : Bool) : State :=
  { calm with
    timer := ⟨0xFFFFFFFF, divCnt, ⟨0, false⟩, ⟨0, false⟩⟩
    inputs := { calm.inputs with cap := { calm.inputs.cap with tcfg := { calm.inputs.cap.tcfg with clear := clear } } } }

/-- `clear`; the count at the rate; the count one below it. -/
theorem meets_TimerAdvancesAtTheDivisionRate :
    (PortsDefined (counting 0 true) ∧ (counting 0 true).inputs.cap.tcfg.clear = true) ∧
      (PortsDefined (counting 255 false) ∧ (counting 255 false).inputs.cap.tcfg.clear = false ∧
        (255 : Byte).toNat ≤ (counting 255 false).timer.divCnt.toNat) ∧
      PortsDefined (counting 254 false) ∧ (counting 254 false).inputs.cap.tcfg.clear = false ∧
        (counting 254 false).timer.divCnt.toNat < (255 : Byte).toNat :=
  ⟨⟨⟨rfl, by decide⟩, rfl⟩, ⟨⟨rfl, by decide⟩, rfl, by decide⟩, ⟨rfl, by decide⟩, rfl, by decide⟩

/-- Free, and busy. -/
theorem meets_ReadoutRequestFillsTheSlot :
    let busy := { calm with readout := ⟨true, ⟨false, 0⟩, false⟩, xing := ⟨true, false, .none⟩ }
    (calm.inputs.ro.reset = false ∧ calm.xing.resp = .none ∧ calm.readout.busy = false) ∧
      busy.inputs.ro.reset = false ∧ busy.inputs.ro.deliver = false ∧ busy.readout.busy = true := by decide

theorem meets_ReadoutDeliversTheResponse :
    let s := { calm with readout := ⟨true, ⟨false, 0⟩, false⟩, xing := ⟨false, false, some ⟨true, 7⟩⟩ }
    let inp : ReadoutInputs := ⟨false, true, true⟩
    inp.reset = false ∧ inp.deliver = true ∧ s.xing.resp = some ⟨true, 7⟩ ∧ s.readout.busy = true := by decide

/-- Granted, and against a record request. -/
theorem meets_CrossingPopsWhenGranted :
    let s := { calm with readout := ⟨true, ⟨false, 0⟩, false⟩, xing := ⟨true, true, .none⟩ }
    let u := { live ⟨5, 0, 0, 0⟩ recordLane0 2 2 with readout := ⟨true, ⟨false, 0⟩, false⟩, xing := ⟨true, true, .none⟩ }
    (s.inputs.cap.reset = false ∧ s.xing.presents s.inputs.cap.xPresent = true ∧ (tickRecord s.inputs.cap s).valid = false) ∧
      u.inputs.cap.reset = false ∧ u.xing.presents u.inputs.cap.xPresent = true ∧ (tickRecord u.inputs.cap u).valid = true := by decide

/-- The inputs of the delivering tick. -/
def delivering : Inputs := { calm.inputs with cap := { calm.inputs.cap with xPresent := true }, ro := ⟨false, false, true⟩ }

theorem meets_ReadoutRequestPopsTheOldestWord :
    let s := { withRing ⟨[(0, 7)], 1, 0, true⟩ with
      script := [⟨calm.inputs, .present ⟨.cfg, 6⟩⟩, ⟨delivering, .captureTick⟩, ⟨delivering, .readoutTick⟩] }
    s.script = ⟨calm.inputs, .present ⟨.cfg, 6⟩⟩ :: ⟨delivering, .captureTick⟩ :: ⟨delivering, .readoutTick⟩ :: [] ∧
      s.readout.busy = false ∧ s.xing = ⟨false, false, .none⟩ ∧ calm.inputs.ro.reset = false ∧ delivering.cap.reset = false ∧
      delivering.cap.xPresent = true ∧ (tickRecord delivering.cap s).valid = false ∧ delivering.ro.reset = false ∧
      delivering.ro.deliver = true ∧ delivering.ro.enable = false := by decide

/-- `calm` with the capture reset asserted. -/
def resetting : State := { calm with inputs := { calm.inputs with cap := { calm.inputs.cap with reset := true } } }

theorem meets_ResetTickResetsTheCaptureDomain :
    captureInputsOf .write8 resetting = some (.none, aluInputs 0 resetting) ∧ resetting.inputs.cap.reset = true ∧
      resetting.inFlight = false := ⟨rfl, rfl, rfl⟩

theorem meets_ResetInFlightNeedsBothDomains :
    let s := { calm with readout := ⟨true, ⟨false, 0⟩, false⟩, xing := ⟨true, false, .none⟩ }
    resetting.inputs.cap.reset = true ∧ (⟨true, false, false⟩ : ReadoutInputs).reset = true ∧ s.inFlight = true ∧ calm.inFlight = false := by
  decide

theorem meets_InvariantHoldsAtReset : 1 ≤ Config.chainLengthAtReset := by decide

theorem meets_EveryStepKeepsTheInvariant : Inv calm ∧ step calm = .next (tickNext .none calm.inputs.cap calm) :=
  ⟨⟨by decide, by decide, by decide, by decide, by decide, by decide, by decide⟩, rfl⟩

/-- A push with room and to a full buffer, a pop of each kind, a retract with and without a live push, `reset_ptrs`, an access, and no
ring op. -/
theorem meets_OnePointerMovesByOne :
    let push (r : Ring) : State := { live ⟨5, 0, 0, 0⟩ recordLane0 2 2 with ring := r }
    let back (r : Ring) : State := { live ⟨5, 0, 0, 0⟩ ⟨false, false, false, true, 0⟩ 2 2 with ring := r }
    let ask (op : BitVec 2) (r : Ring) : State := asking ⟨true, op, 0, false, 0, 0, 0⟩ r
    let one : Ring := ⟨[(0, 9)], 1, 0, true⟩
    let full : Ring := ⟨[], 0x800, 0, true⟩
    let op (s : State) : RingOp := tickRingOp s.inputs.cap s
    ((push one).inputs.cap.reset = false ∧ captureTick .none (push one).inputs.cap (push one) = .next (tickNext .none (push one).inputs.cap (push one))) ∧
      (op (push one) = .push ⟨2, 5, 1⟩ ∧ one.occ ≠ 2048 ∧ op (push full) = .push ⟨2, 5, 1⟩ ∧ full.occ = 2048) ∧
      (op (ask 3 one) = .pop ∧ one.occ ≠ 0 ∧ op (ask 3 Ring.reset) = .pop ∧ Ring.reset.occ = 0) ∧
      (op (back one) = .retract 2 ∧ one.lastPushLive = true ∧ op (back Ring.reset) = .retract 2 ∧ Ring.reset.lastPushLive = false) ∧
      op (ask 1 one) = .resetPtrs ∧ op (ask 0 one) = .access 0 .none ∧ op calm = .idle :=
  ⟨⟨rfl, rfl⟩, by decide⟩

end Sys2Proof.Tests
end

section
/-! SUPPORT. The step by the schedule: what fetching answers for each shape of the schedule, what presenting a code does, and from these
the step for each kind of entry. -/

namespace Sys2Proof.Machine

/-! ## Fetching and presenting -/

theorem fetch_of_script_nil {s : State} (h : s.script = []) : fetch s = (.captureTick, s) := by
  simp only [fetch, h]

theorem fetch_of_script_cons {s : State} {e : Event} {rest : List Event} (h : s.script = e :: rest) :
    fetch s = (e.action, { s with inputs := e.inputs, script := rest }) := by
  simp only [fetch, h]

theorem present_of_decode_ok {c : Code} {i : Instr} (h : decode c = .ok i) (s : State) : present c s = exec i s := by
  simp only [present, h]

/-- A number that is no word of its format presents nothing (log entry 27). -/
theorem present_of_decode_error {c : Code} {e : DecodeError} (h : decode c = .error e) (s : State) :
    present c s = captureTick .none s.inputs.cap s := by
  simp only [present, h]

/-! ## The step for each kind of entry -/

section
variable {s : State} {inp : Inputs} {rest : List Event}

theorem step_of_script_nil (h : s.script = []) : step s = captureTick .none s.inputs.cap s := by
  simp only [step, fetch_of_script_nil h]

theorem step_of_present {c : Code} (h : s.script = ⟨inp, .present c⟩ :: rest) :
    step s = present c { s with inputs := inp, script := rest } := by
  simp only [step, fetch_of_script_cons h]

theorem step_of_captureTick (h : s.script = ⟨inp, .captureTick⟩ :: rest) :
    step s = captureTick .none inp.cap { s with inputs := inp, script := rest } := by
  simp only [step, fetch_of_script_cons h]

theorem step_of_readoutTick (h : s.script = ⟨inp, .readoutTick⟩ :: rest) :
    step s = readoutTick inp.ro { s with inputs := inp, script := rest } := by
  simp only [step, fetch_of_script_cons h]

theorem step_of_resetBoth (h : s.script = ⟨inp, .resetBoth⟩ :: rest) :
    step s = .next (resetBoth { s with inputs := inp, script := rest }) := by
  simp only [step, fetch_of_script_cons h]

end

/-- Settles O5, entry by entry: a presented code goes by what the decoder says of it, and every other kind of entry, and the empty
schedule, is one equation of the step. -/
theorem stepRunsTheScheduledOperation : Obligations.StepRunsTheScheduledOperation := by
  intro s inp rest
  refine ⟨?word, ?noWord, step_of_captureTick, step_of_readoutTick, step_of_resetBoth, step_of_script_nil⟩
  case word =>
    intro c i hscript hdecode
    rw [step_of_present hscript, present_of_decode_ok hdecode]
  case noWord =>
    intro c e hscript hdecode
    rw [step_of_present hscript, present_of_decode_error hdecode]

end Sys2Proof.Machine
end

section
/-! SUPPORT. The resets: what a reset tick of either domain answers, what the reset of both domains leaves in every register, and the
invariant of the reset state part by part. -/

namespace Sys2Proof.Machine

/-! ## A reset tick of one domain -/

section
variable {op : MasterOp} {inp : CaptureInputs} {ro : ReadoutInputs} {s : State}

/-- R197 (U8): the reset of the capture domain alone, with a readout request in flight. -/
theorem captureTick_of_reset_inFlight (hreset : inp.reset = true) (hflight : s.inFlight = true) :
    captureTick op inp s = .refused .resetInFlight := by
  rw [captureTick, if_pos hreset, if_pos hflight]

/-- R196: the reset of the capture domain with no readout request in flight. -/
theorem captureTick_of_reset (hreset : inp.reset = true) (hflight : s.inFlight = false) :
    captureTick op inp s = .next (resetCapture s) := by
  rw [captureTick, if_pos hreset, if_neg (ne_true_of_eq_false hflight)]

/-- R197 (U8): the reset of the readout domain alone, with a readout request in flight. -/
theorem readoutTick_of_reset_inFlight (hreset : ro.reset = true) (hflight : s.inFlight = true) :
    readoutTick ro s = .refused .resetInFlight := by
  rw [readoutTick, if_pos hreset, if_pos hflight]

/-- R197: the reset of the readout domain with no readout request in flight. -/
theorem readoutTick_of_reset (hreset : ro.reset = true) (hflight : s.inFlight = false) :
    readoutTick ro s = .next (resetReadout s) := by
  rw [readoutTick, if_pos hreset, if_neg (ne_true_of_eq_false hflight)]

end

/-! ## What a reset leaves -/

/-- R196: the chain stays as long as it was, and every node of it is a reset node. -/
theorem resetCapture_nodes_eq_replicate (s : State) : (resetCapture s).nodes = List.replicate s.nodes.length Node.reset := by
  rw [resetCapture_nodes, List.map_const']

/-- R49, R196, R197: every register after the reset of both domains; the store, the parameter, the ports and the schedule stay. -/
theorem resetBoth_eq (s : State) :
    resetBoth s =
      { s with
        nodes := List.replicate s.nodes.length Node.reset
        master := Master.reset
        filter := FilterState.reset
        vbStored := 0
        trig := TriggerState.reset
        timer := Timer.reset
        ring := ⟨s.ring.mem, 0, 0, false⟩
        fifo := FifoStatus.reset
        svcResp := SvcResp.reset
        readout := Readout.reset
        xing := Crossing.reset
        out := Outputs.reset } := by
  rw [← resetCapture_nodes_eq_replicate]
  rfl

/-- Settles O57: each reset of one domain goes by whether a request is in flight, and the reset of both is one whole state. -/
theorem resetInFlightNeedsBothDomains : Obligations.ResetInFlightNeedsBothDomains := by
  intro op inp ro s
  exact ⟨captureTick_of_reset_inFlight, readoutTick_of_reset_inFlight, readoutTick_of_reset, resetBoth_eq s⟩

/-! ## The invariant at reset -/

/-- R106, R107: in a chain of reset nodes, however long, no node is SELECTED. -/
theorem chainOk_replicate_reset (n : Nat) : chainOk (List.replicate n Node.reset) = true := by
  have hnode : ∀ m ∈ List.replicate n Node.reset, ((!m.selected || m.token) && decide (m.nibIdx.toNat ≤ 8)) = true := by
    intro m hm
    rw [List.eq_of_mem_replicate hm]
    rfl
  have hcount : (List.replicate n Node.reset).countP (fun m => m.selected) = 0 := by
    simp [List.countP_replicate, Node.reset]
  simp only [chainOk, List.all_eq_true.mpr hnode, hcount, Nat.zero_le, decide_true, Bool.and_self]

/-- R116, R117: the reset master has no op in progress, and its watchdog stands at 0. -/
theorem masterOk_reset (timeout : Nat) : masterOk timeout Master.reset = true := by
  simp [masterOk, Master.reset]

/-- R34: with both pointers 0 the buffer is empty. -/
theorem occ_zero_pointers (m : Memory) (live : Bool) : Ring.occ ⟨m, 0, 0, live⟩ = 0 := BitVec.sub_self 0

/-- R34, R166: with both pointers 0 and no live push, only the form of the store is left to ask. -/
theorem ringOk_zero_pointers (m : Memory) : ringOk ⟨m, 0, 0, false⟩ = Memory.wf m := by
  rw [ringOk, occ_zero_pointers]
  simp

theorem responseOk_reset : responseOk SvcResp.reset = true := rfl

theorem handshakeOk_reset : handshakeOk Readout.reset Crossing.reset = true := rfl

/-- Settles O58, part by part of the invariant; N ≥ 1 is what makes the chain non-empty. -/
theorem invariantHoldsAtReset : Obligations.InvariantHoldsAtReset := by
  intro n timeout hn
  exact
    { nonempty := mt (List.replicate_eq_nil_iff Node.reset).mp (Nat.ne_of_gt hn)
      chain := chainOk_replicate_reset n
      master := masterOk_reset timeout
      ring := (ringOk_zero_pointers []).trans Memory.wf_reset
      level := (occ_zero_pointers [] false).symm
      response := responseOk_reset
      handshake := handshakeOk_reset }

end Sys2Proof.Machine
end

section
/-! SUPPORT. The frame of a capture operation: the tick it runs, and what of the ring and of the filter that tick leaves alone. -/

namespace Sys2Proof.Machine

/-- R16: outside reset a capture tick that answers a next state answers `tickNext`. -/
theorem eq_tickNext_of_captureTick_next {op : MasterOp} {inp : CaptureInputs} {s t : State} (hreset : inp.reset = false)
    (h : captureTick op inp s = .next t) : t = tickNext op inp s := by
  rcases captureTick_next h with ⟨hreset', -, -⟩ | ⟨-, -, ht⟩
  · exact absurd hreset' (ne_true_of_eq_false hreset)
  · exact ht

/-- R160: with nothing to execute the ring stays. -/
theorem tickRing_of_ringOp_idle {inp : CaptureInputs} {s : State} (h : tickRingOp inp s = .idle) : tickRing inp s = s.ring := by
  rw [tickRing, h]
  rfl

/-- R153: a sample that is not admitted leaves no trace in the history. -/
theorem filterNext_of_not_admitted {c : FilterConfig} {raw : Sample4} {f : FilterState} (h : filterAdmits c f raw = false) :
    filterNext c raw f = f := by
  rw [filterNext, if_neg (ne_true_of_eq_false h)]

/-- Settles O46: the operation is one tick of its inputs, and each part of the frame is a law of that tick. -/
theorem operationsKeepWhatTheyDoNotWrite : Obligations.OperationsKeepWhatTheyDoNotWrite := by
  intro i s t op inp hinp hreset hexec
  rw [exec_eq_captureTick hinp] at hexec
  obtain rfl := eq_tickNext_of_captureTick_next hreset hexec
  refine ⟨?store, tickRing_of_ringOp_idle, filterNext_of_not_admitted, keepsSurroundings_tickNext op inp s⟩
  case store => exact runRing_keepsStore (Config.reservedAluResult s.free) (tickRingOp inp s) s.ring

end Sys2Proof.Machine
end

section
/-! SUPPORT. A readout request on its way: the readout tick that accepts it, the capture tick that pops for it or lets it wait, and the
readout tick that delivers the response. -/

namespace Sys2Proof.Machine

/-! ## The readout tick -/

section
variable {inp : ReadoutInputs} {s : State}

theorem readoutTick_of_not_reset (hreset : inp.reset = false) : readoutTick inp s = .next (readoutNext inp s) := by
  rw [readoutTick, if_neg (ne_true_of_eq_false hreset)]

/-- R65: a pulse while the port is busy is ignored. -/
theorem readoutAccepts_of_busy (hbusy : s.readout.busy = true) : readoutAccepts inp s = false := by
  simp only [readoutAccepts, hbusy, Bool.not_true, Bool.and_false]

/-- R63: a pulse while the port is free is accepted. -/
theorem readoutAccepts_of_free (henable : inp.enable = true) (hbusy : s.readout.busy = false) : readoutAccepts inp s = true := by
  simp only [readoutAccepts, henable, hbusy, Bool.not_false, Bool.and_true]

/-- R63, R64: the registers after a tick that delivers. -/
theorem readoutNext_of_deliver {resp : RoResp} (hdeliver : inp.deliver = true) (hresp : s.xing.resp = some resp) :
    readoutNext inp s =
      { s with
        readout := ⟨readoutAccepts inp s, resp, true⟩
        xing := { s.xing with req := s.xing.req || readoutAccepts inp s, resp := .none } } := by
  simp only [readoutNext, hdeliver, hresp]

/-- R63: the registers after a tick in which there is nothing to deliver, or the crossing delivers nothing. -/
theorem readoutNext_of_no_delivery (h : s.xing.resp = .none ∨ inp.deliver = false) :
    readoutNext inp s =
      { s with
        readout := { s.readout with busy := s.readout.busy || readoutAccepts inp s, strobe := false }
        xing := { s.xing with req := s.xing.req || readoutAccepts inp s } } := by
  unfold readoutNext
  split
  next resp hresp hdeliver => simp [hresp, hdeliver] at h
  next => rfl

/-- R63, R65: after a request pulse the port is busy, whether the pulse was accepted or a request was already on its way. -/
theorem readoutNext_readout_of_request (henable : inp.enable = true) (h : s.xing.resp = .none ∨ inp.deliver = false) :
    (readoutNext inp s).readout = ⟨true, s.readout.out, false⟩ := by
  rw [readoutNext_of_no_delivery h]
  cases hbusy : s.readout.busy
  · simp only [readoutAccepts_of_free henable hbusy, Bool.or_true]
  · simp only [Bool.true_or]

/-- R63: the accepted request stands in `x_req`. -/
theorem readoutNext_xing_of_accepted (henable : inp.enable = true) (h : s.xing.resp = .none ∨ inp.deliver = false)
    (hbusy : s.readout.busy = false) : (readoutNext inp s).xing = { s.xing with req := true } := by
  rw [readoutNext_of_no_delivery h, readoutAccepts_of_free henable hbusy]
  simp only [Bool.or_true]

/-- R65: an ignored pulse leaves both slots. -/
theorem readoutNext_xing_of_ignored (h : s.xing.resp = .none ∨ inp.deliver = false) (hbusy : s.readout.busy = true) :
    (readoutNext inp s).xing = s.xing := by
  rw [readoutNext_of_no_delivery h, readoutAccepts_of_busy hbusy]
  simp only [Bool.or_false]

/-- R63, R64: a delivery to the waiting port. -/
theorem readoutNext_readout_of_delivered {resp : RoResp} (hdeliver : inp.deliver = true) (hresp : s.xing.resp = some resp)
    (hbusy : s.readout.busy = true) : (readoutNext inp s).readout = ⟨false, resp, true⟩ := by
  rw [readoutNext_of_deliver hdeliver hresp, readoutAccepts_of_busy hbusy]

theorem readoutNext_xing_of_delivered {resp : RoResp} (hdeliver : inp.deliver = true) (hresp : s.xing.resp = some resp)
    (hbusy : s.readout.busy = true) : (readoutNext inp s).xing = { s.xing with resp := .none } := by
  rw [readoutNext_of_deliver hdeliver hresp, readoutAccepts_of_busy hbusy]
  simp only [Bool.or_false]

end

theorem exec_roRequest (s : State) : exec .roRequest s = readoutTick { s.inputs.ro with enable := true } s := rfl

/-- Settles O52: the operation is a readout tick with the pulse, and the tick's registers go by whether the port is busy. -/
theorem readoutRequestFillsTheSlot : Obligations.ReadoutRequestFillsTheSlot := by
  intro s hreset hquiet
  refine ⟨readoutNext { s.inputs.ro with enable := true } s, ?tick, readoutNext_readout_of_request rfl hquiet,
    readoutNext_xing_of_accepted rfl hquiet, readoutNext_xing_of_ignored hquiet, readoutNext_eq _ s⟩
  case tick => exact (exec_roRequest s).trans (readoutTick_of_not_reset hreset)

/-- Settles O53: the tick is `readoutNext`, whose registers after a delivery are said above. -/
theorem readoutDeliversTheResponse : Obligations.ReadoutDeliversTheResponse := by
  intro inp s resp hreset hdeliver hresp hbusy
  exact ⟨readoutNext inp s, readoutTick_of_not_reset hreset, readoutNext_readout_of_delivered hdeliver hresp hbusy,
    readoutNext_xing_of_delivered hdeliver hresp hbusy, readoutNext_eq inp s⟩

/-! ## The capture tick in which the crossing presents its request -/

section
variable {inp : CaptureInputs} {s : State}

/-- R63, log entry 12: the request the ring sees is the crossing's pop. -/
theorem serviceRequest_of_presents (hpresents : s.xing.presents inp.xPresent = true) : serviceRequest s.xing inp = crossingPop := by
  rw [serviceRequest, if_pos hpresents]

/-- The crossing's request is a pop, so the tick grants no service push (U7), whatever the host asks. -/
theorem grantsServicePush_of_presents (hpresents : s.xing.presents inp.xPresent = true) : grantsServicePush inp s = false := by
  rw [grantsServicePush_eq, serviceRequest_of_presents hpresents]
  simp [crossingPop]

/-- R159: without a record request the crossing's pop is granted. -/
theorem tickGrant_of_presents (hpresents : s.xing.presents inp.xPresent = true) (hrecord : (tickRecord inp s).valid = false) :
    tickGrant inp s = .service crossingPop := by
  rw [tickGrant, serviceRequest_of_presents hpresents, arbitrate, if_neg (ne_true_of_eq_false hrecord)]
  rfl

/-- R159: a record request always wins. -/
theorem tickGrant_of_record (hrecord : (tickRecord inp s).valid = true) : tickGrant inp s = .record (tickRecord inp s) := by
  rw [tickGrant, arbitrate, if_pos hrecord]

theorem tickRingOp_of_presents (hpresents : s.xing.presents inp.xPresent = true) (hrecord : (tickRecord inp s).valid = false) :
    tickRingOp inp s = .pop := by
  rw [tickRingOp, tickGrant_of_presents hpresents hrecord]
  rfl

/-- R164: the granted crossing pops. -/
theorem tickRing_of_presents (hpresents : s.xing.presents inp.xPresent = true) (hrecord : (tickRecord inp s).valid = false) :
    tickRing inp s = popRing s.ring := by
  rw [tickRing, tickRingOp_of_presents hpresents hrecord]
  rfl

/-- R164, R180: the granted crossing's response is that of a pop. -/
theorem tickSvcResp_of_presents (hpresents : s.xing.presents inp.xPresent = true) (hrecord : (tickRecord inp s).valid = false) :
    tickSvcResp inp s = svcNext true .pop s.ring := by
  rw [tickSvcResp, tickRingOp_of_presents hpresents hrecord, tickGrant_of_presents hpresents hrecord]
  rfl

/-- R180: a tick that grants the record request acknowledges no service request. -/
theorem tickSvcResp_of_record (hrecord : (tickRecord inp s).valid = true) : tickSvcResp inp s = ⟨false, false, 0⟩ := by
  rw [tickSvcResp, tickGrant_of_record hrecord]
  rfl

end

/-- R164, R180: the response to a pop: acknowledged, with the oldest word if there is one. -/
theorem svcNext_pop (r : Ring) :
    svcNext true .pop r = if r.occ = 0 then ⟨true, false, 0⟩ else ⟨true, true, Memory.read r.mem (ptrAddr r.rp)⟩ := rfl

theorem svcNext_pop_ack (r : Ring) : (svcNext true .pop r).ack = true := by
  rw [svcNext_pop]
  split <;> rfl

/-- R63, R164: what crosses to the readout domain of the response to a pop. -/
theorem roResp_of_svcNext_pop (r : Ring) :
    (⟨(svcNext true .pop r).valid, (svcNext true .pop r).data⟩ : RoResp) =
      if r.occ = 0 then ⟨false, 0⟩ else ⟨true, Memory.read r.mem (ptrAddr r.rp)⟩ := by
  rw [svcNext_pop]
  split <;> rfl

section
variable {inp : CaptureInputs} {resp : SvcResp} {x : Crossing}

/-- R63: the acknowledged crossing. -/
theorem crossingNext_of_ack (hpresents : x.presents inp.xPresent = true) (hack : resp.ack = true) :
    crossingNext inp resp x = ⟨false, false, some ⟨resp.valid, resp.data⟩⟩ := by
  rw [crossingNext, if_pos hpresents, if_pos hack]

/-- R63, log entry 23: the crossing that waits goes on presenting. -/
theorem crossingNext_of_no_ack (hpresents : x.presents inp.xPresent = true) (hack : resp.ack = false) :
    crossingNext inp resp x = { x with presenting := true } := by
  rw [crossingNext, if_pos hpresents, if_neg (ne_true_of_eq_false hack)]

end

section
variable {op : MasterOp} {inp : CaptureInputs} {s : State}

/-- A tick in which the crossing presents runs, whatever the host asks in it. -/
theorem captureTick_of_presents (hreset : inp.reset = false) (hpresents : s.xing.presents inp.xPresent = true) :
    captureTick op inp s = .next (tickNext op inp s) :=
  captureTick_of_defined hreset (grantsServicePush_of_presents hpresents)

/-- R63, R164: the granted tick fills `x_resp` and empties `x_req`. -/
theorem tickNext_xing_of_granted (hpresents : s.xing.presents inp.xPresent = true) (hrecord : (tickRecord inp s).valid = false) :
    (tickNext op inp s).xing = ⟨false, false, some ⟨(tickSvcResp inp s).valid, (tickSvcResp inp s).data⟩⟩ := by
  have hack : (tickSvcResp inp s).ack = true := by
    rw [tickSvcResp_of_presents hpresents hrecord, svcNext_pop_ack]
  rw [tickNext_xing, crossingNext_of_ack hpresents hack]

/-- R63, R164: what the granted tick leaves in `x_resp`: the oldest word, or an invalid response if there is none. -/
theorem tickNext_xing_of_popped (hpresents : s.xing.presents inp.xPresent = true) (hrecord : (tickRecord inp s).valid = false) :
    (tickNext op inp s).xing =
      ⟨false, false, some (if s.ring.occ = 0 then ⟨false, 0⟩ else ⟨true, Memory.read s.ring.mem (ptrAddr s.ring.rp)⟩)⟩ := by
  rw [tickNext_xing_of_granted hpresents hrecord, tickSvcResp_of_presents hpresents hrecord, roResp_of_svcNext_pop]

/-- R63, R159: against a record request the crossing waits. -/
theorem tickNext_xing_of_waiting (hpresents : s.xing.presents inp.xPresent = true) (hrecord : (tickRecord inp s).valid = true) :
    (tickNext op inp s).xing = { s.xing with presenting := true } := by
  have hack : (tickSvcResp inp s).ack = false := by rw [tickSvcResp_of_record hrecord]
  rw [tickNext_xing, crossingNext_of_no_ack hpresents hack]

end

/-- Settles O54: the arbiter grants the crossing's pop exactly without a record request, and the slots go by the acknowledgement. -/
theorem crossingPopsWhenGranted : Obligations.CrossingPopsWhenGranted := by
  intro op inp s hreset hpresents
  refine ⟨tickNext op inp s, captureTick_of_presents hreset hpresents, ?granted, ?waiting⟩
  case granted =>
    intro hrecord
    exact ⟨tickRing_of_presents hpresents hrecord, tickNext_xing_of_granted hpresents hrecord,
      tickSvcResp_of_presents hpresents hrecord⟩
  case waiting =>
    intro hrecord
    exact ⟨tickNext_xing_of_waiting hpresents hrecord, tickSvcResp_of_record hrecord⟩

/-! ## The way of one request, step by step -/

/-- The record request of a tick does not look at the readout side, the ports or the schedule. -/
theorem tickRecord_of_readoutSide (cap : CaptureInputs) (s : State) (port : Readout) (slots : Crossing) (ports : Inputs)
    (rest : List Event) :
    tickRecord cap { s with readout := port, xing := slots, inputs := ports, script := rest } = tickRecord cap s := rfl

/-- Log entry 8: the number of `RO_REQUEST`. -/
theorem decode_roRequest : decode ⟨.cfg, 6⟩ = .ok .roRequest := by decide

section
variable {s : State} {inp : Inputs} {rest : List Event}

/-- R63: a scheduled readout request at a free port, with both slots empty. -/
theorem step_of_roRequest (hscript : s.script = ⟨inp, .present ⟨.cfg, 6⟩⟩ :: rest) (hreset : inp.ro.reset = false)
    (hbusy : s.readout.busy = false) (hxing : s.xing = ⟨false, false, .none⟩) :
    ∃ t, step s = .next t ∧ t.script = rest ∧ t.readout.busy = true ∧ t.xing = ⟨true, false, .none⟩ ∧ t.ring = s.ring ∧
      ∀ cap, tickRecord cap t = tickRecord cap s := by
  have hquiet : s.xing.resp = .none := by rw [hxing]
  obtain ⟨t, hexec, hreadout, haccepted, -, hframe⟩ :=
    readoutRequestFillsTheSlot { s with inputs := inp, script := rest } hreset (.inl hquiet)
  refine ⟨t, ?step, ?schedule, ?busy, ?slots, ?ring, ?record⟩
  case step => rw [step_of_present hscript, present_of_decode_ok decode_roRequest, hexec]
  case schedule => rw [hframe]
  case busy => rw [hreadout]
  case slots => rw [haccepted hbusy, hxing]
  case ring => rw [hframe]
  case record =>
    intro cap
    rw [hframe]
    exact tickRecord_of_readoutSide cap s t.readout t.xing inp rest

/-- R63, R164: a scheduled capture tick that grants the crossing's request. -/
theorem step_of_crossingPop (hscript : s.script = ⟨inp, .captureTick⟩ :: rest) (hreset : inp.cap.reset = false)
    (hpresents : s.xing.presents inp.cap.xPresent = true) (hrecord : (tickRecord inp.cap s).valid = false) :
    ∃ t, step s = .next t ∧ t.script = rest ∧ t.readout = s.readout ∧ t.ring = popRing s.ring ∧
      t.xing = ⟨false, false, some (if s.ring.occ = 0 then ⟨false, 0⟩ else ⟨true, Memory.read s.ring.mem (ptrAddr s.ring.rp)⟩)⟩ := by
  refine ⟨tickNext .none inp.cap { s with inputs := inp, script := rest }, ?step, tickNext_script .., tickNext_readout ..,
    tickRing_of_presents hpresents hrecord, tickNext_xing_of_popped hpresents hrecord⟩
  case step => exact (step_of_captureTick hscript).trans (captureTick_of_presents hreset hpresents)

/-- R63, R64: a scheduled readout tick that delivers to the waiting port. -/
theorem step_of_delivery {resp : RoResp} (hscript : s.script = ⟨inp, .readoutTick⟩ :: rest) (hreset : inp.ro.reset = false)
    (hdeliver : inp.ro.deliver = true) (hbusy : s.readout.busy = true) (hresp : s.xing.resp = some resp) :
    ∃ t, step s = .next t ∧ t.script = rest ∧ t.xing = { s.xing with resp := .none } ∧ t.ring = s.ring ∧
      t.readout = ⟨false, resp, true⟩ := by
  obtain ⟨t, htick, hreadout, hxing, hframe⟩ :=
    readoutDeliversTheResponse inp.ro { s with inputs := inp, script := rest } resp hreset hdeliver hresp hbusy
  refine ⟨t, ?step, ?schedule, hxing, ?ring, hreadout⟩
  case step => rw [step_of_readoutTick hscript, htick]
  case schedule => rw [hframe]
  case ring => rw [hframe]

end

/-- Settles O55: request, pop and delivery, one step after the other. -/
theorem readoutRequestPopsTheOldestWord : Obligations.ReadoutRequestPopsTheOldestWord := by
  intro s inp1 inp2 inp3 rest hscript hbusy hxing hreset1 hreset2 hpresent hrecord hreset3 hdeliver _
  obtain ⟨t, hstep1, hscript1, hbusy1, hxing1, hring1, hrecord1⟩ := step_of_roRequest hscript hreset1 hbusy hxing
  have hpresents : t.xing.presents inp2.cap.xPresent = true := by rw [hxing1, hpresent]; rfl
  obtain ⟨u, hstep2, hscript2, hreadout2, hring2, hxing2⟩ :=
    step_of_crossingPop hscript1 hreset2 hpresents (by rw [hrecord1, hrecord])
  have hbusy2 : u.readout.busy = true := by rw [hreadout2, hbusy1]
  obtain ⟨v, hstep3, hscript3, hxing3, hring3, hreadout3⟩ :=
    step_of_delivery hscript2 hreset3 hdeliver hbusy2 (congrArg Crossing.resp hxing2)
  refine ⟨v, ?run, hscript3, ?slots, ?ring, ?port⟩
  case run => rw [run_succ 2 hstep1, run_succ 1 hstep2, run_succ 0 hstep3]; rfl
  case slots => rw [hxing3, hxing2]
  case ring => rw [hring3, hring2, hring1]
  case port => rw [hreadout3, hring1]

end Sys2Proof.Machine
end

section
/-! SUPPORT. The encoding, format by format: the fields of a word are the digits of its number (R69 to R82), so that decoding what is
encoded and encoding what decodes are both facts about digits. -/

namespace Sys2Proof

/-! ## Bits of a word as digits of its number -/

section
variable {n i k : Nat} {w : BitVec n}

theorem getLsbD_toNat (w : BitVec n) (i : Nat) : (w.getLsbD i).toNat = w.toNat / 2 ^ i % 2 := Nat.toNat_testBit ..

theorem extractLsb'_toNat_eq_div_mod (w : BitVec n) (i k : Nat) : (w.extractLsb' i k).toNat = w.toNat / 2 ^ i % 2 ^ k := by
  rw [BitVec.extractLsb'_toNat, Nat.shiftRight_eq_div_pow]

theorem getLsbD_eq_of_digit {b : Bool} (h : w.toNat / 2 ^ i % 2 = b.toNat) : w.getLsbD i = b :=
  Function.LeftInverse.injective Bool.ofNat_toNat (by rw [getLsbD_toNat, h])

theorem extractLsb'_eq_of_digits {x : BitVec k} (h : w.toNat / 2 ^ i % 2 ^ k = x.toNat) : w.extractLsb' i k = x :=
  BitVec.eq_of_toNat_eq (by rw [extractLsb'_toNat_eq_div_mod, h])

theorem toNat_ofNat_of_lt {m : Nat} (h : m < 2 ^ n) : (BitVec.ofNat n m).toNat = m := by
  rw [BitVec.toNat_ofNat, Nat.mod_eq_of_lt h]

theorem toNat_append_eq_mul_add (x : BitVec k) (y : BitVec n) : (x ++ y).toNat = x.toNat * 2 ^ n + y.toNat := by
  rw [BitVec.toNat_append, ← Nat.shiftLeft_add_eq_or_of_lt y.isLt, Nat.shiftLeft_eq]

end

/-! ## CTL7 (R69, R70) -/

theorem ctl7Bits_lt (valid : Bool) (data : BitVec 4) (enable select : Bool) : ctl7Bits valid data enable select < 2 ^ 7 := by
  have := valid.toNat_lt; have := enable.toNat_lt; have := select.toNat_lt
  unfold ctl7Bits; omega

theorem ctl7_fields {valid enable select : Bool} {data : BitVec 4} {w : BitVec 7} (h : w.toNat = ctl7Bits valid data enable select) :
    w.getLsbD 6 = valid ∧ w.extractLsb' 2 4 = data ∧ w.getLsbD 1 = enable ∧ w.getLsbD 0 = select := by
  have := valid.toNat_lt; have := enable.toNat_lt; have := select.toNat_lt
  unfold ctl7Bits at h
  refine ⟨getLsbD_eq_of_digit ?_, extractLsb'_eq_of_digits ?_, getLsbD_eq_of_digit ?_, getLsbD_eq_of_digit ?_⟩ <;> omega

theorem ctl7Bits_of_fields (w : BitVec 7) :
    ctl7Bits (w.getLsbD 6) (w.extractLsb' 2 4) (w.getLsbD 1) (w.getLsbD 0) = w.toNat := by
  simp only [ctl7Bits, getLsbD_toNat, extractLsb'_toNat_eq_div_mod]
  omega

theorem decode_encode_ctl7 {i : Instr} (h : (encode i).fmt = .ctl7) : decode (encode i) = .ok i := by
  have hdecode (v : Bool) (d : BitVec 4) (e s : Bool) := decode_ctl7 _ (ctl7Bits_lt v d e s)
  have hfields (v : Bool) (d : BitVec 4) (e s : Bool) := ctl7_fields (toNat_ofNat_of_lt (ctl7Bits_lt v d e s))
  cases i <;> cases h <;> simp only [encode, hdecode, decodeCtl7, hfields] <;> rfl

/-- R70: the classes cover all 128 words; a word with `valid` and without `enable` is named by its `data`. -/
theorem encode_decodeCtl7 (w : BitVec 7) : encode (decodeCtl7 w) = ⟨.ctl7, w.toNat⟩ := by
  rw [← ctl7Bits_of_fields w, decodeCtl7]
  generalize w.getLsbD 6 = valid, w.extractLsb' 2 4 = data, w.getLsbD 1 = enable, w.getLsbD 0 = select
  match enable, valid with
  | true, false => rfl
  | true, true => rfl
  | false, false => rfl
  | false, true => revert data select; decide

/-! ## MOP (R72; log entry 8) -/

theorem decodeMop_select (k : Nat) : decodeMop (3 + 8 * k) = .ok (.mopSelect k) := by
  have hoperand : (3 + 8 * k) / 8 = k := by omega
  have hcode : (3 + 8 * k) % 8 = 3 := by omega
  simp only [decodeMop, hoperand, hcode]

theorem decodeMop_writeNibble (d : BitVec 4) : decodeMop (5 + 8 * d.toNat) = .ok (.mopWriteNibble d) := by
  have hoperand : (5 + 8 * d.toNat) / 8 = d.toNat := by omega
  have hcode : (5 + 8 * d.toNat) % 8 = 5 := by omega
  simp only [decodeMop, hoperand, hcode, if_pos d.isLt, BitVec.ofNat_toNat, BitVec.setWidth_eq]

theorem decode_encode_mop {i : Instr} (h : (encode i).fmt = .mop) : decode (encode i) = .ok i := by
  cases i <;> cases h
  case mopSelect k => exact decodeMop_select k
  case mopWriteNibble d => exact decodeMop_writeNibble d
  all_goals rfl

theorem encode_of_decodeMop {w : Nat} {i : Instr} (h : decodeMop w = .ok i) : encode i = ⟨.mop, w⟩ := by
  have hw : w % 8 + 8 * (w / 8) = w := Nat.mod_add_div w 8
  have hcode : w % 8 < 8 := Nat.mod_lt w (by decide)
  simp only [decodeMop] at h
  generalize w / 8 = operand, w % 8 = code at h hw hcode
  split at h
  case h_1 =>
    cases h
    rw [encode, hw]
  case h_2 =>
    split at h
    case isTrue hlt =>
      cases h
      rw [encode, toNat_ofNat_of_lt hlt, hw]
    case isFalse => cases h
  case h_3 hne3 hne5 =>
    by_cases hzero : operand = 0
    · rw [if_neg (not_not.mpr hzero)] at h
      subst hzero hw
      split at h
      case h_6 hne0 hne1 hne2 hne4 hne6 =>
        obtain rfl : code = 7 := by grind
        cases h
        rfl
      all_goals
        cases h
        rfl
    · rw [if_pos hzero] at h
      cases h

/-! ## TREQ4 (R80) and ACT6 (R78): a word is named by its lowest set flag -/

theorem treq4Bits_lt (enable clear start stop : Bool) : treq4Bits enable clear start stop < 2 ^ 4 := by
  have := enable.toNat_lt; have := clear.toNat_lt; have := start.toNat_lt; have := stop.toNat_lt
  unfold treq4Bits; omega

theorem treq4_fields {enable clear start stop : Bool} {w : BitVec 4} (h : w.toNat = treq4Bits enable clear start stop) :
    w.getLsbD 0 = enable ∧ w.getLsbD 1 = clear ∧ w.getLsbD 2 = start ∧ w.getLsbD 3 = stop := by
  have := enable.toNat_lt; have := clear.toNat_lt; have := start.toNat_lt; have := stop.toNat_lt
  unfold treq4Bits at h
  refine ⟨getLsbD_eq_of_digit ?_, getLsbD_eq_of_digit ?_, getLsbD_eq_of_digit ?_, getLsbD_eq_of_digit ?_⟩ <;> omega

theorem treq4Bits_of_fields (w : BitVec 4) : treq4Bits (w.getLsbD 0) (w.getLsbD 1) (w.getLsbD 2) (w.getLsbD 3) = w.toNat := by
  simp only [treq4Bits, getLsbD_toNat]
  omega

theorem decode_encode_treq4 {i : Instr} (h : (encode i).fmt = .treq4) : decode (encode i) = .ok i := by
  have hdecode (e c st sp : Bool) := decode_treq4 _ (treq4Bits_lt e c st sp)
  have hfields (e c st sp : Bool) := treq4_fields (toNat_ofNat_of_lt (treq4Bits_lt e c st sp))
  cases i <;> cases h
  case trigEnableLow => rfl
  all_goals
    simp only [encode, hdecode, decodeTreq4, hfields]
    rfl

theorem encode_decodeTreq4 (w : BitVec 4) : encode (decodeTreq4 w) = ⟨.treq4, w.toNat⟩ := by
  rw [← treq4Bits_of_fields w, decodeTreq4]
  generalize w.getLsbD 0 = enable, w.getLsbD 1 = clear, w.getLsbD 2 = start, w.getLsbD 3 = stop
  match enable, clear, start, stop with
  | true, _, _, _ => rfl
  | false, true, _, _ => rfl
  | false, false, true, _ => rfl
  | false, false, false, true => rfl
  | false, false, false, false => rfl

theorem act6Bits_lt (halt data time inval : Bool) (select : BitVec 2) : act6Bits halt data time inval select < 2 ^ 6 := by
  have := halt.toNat_lt; have := data.toNat_lt; have := time.toNat_lt; have := inval.toNat_lt
  unfold act6Bits; omega

theorem act6_fields {halt data time inval : Bool} {select : BitVec 2} {w : BitVec 6} (h : w.toNat = act6Bits halt data time inval select) :
    w.getLsbD 0 = halt ∧ w.getLsbD 1 = data ∧ w.getLsbD 2 = time ∧ w.getLsbD 3 = inval ∧ w.extractLsb' 4 2 = select := by
  have := halt.toNat_lt; have := data.toNat_lt; have := time.toNat_lt; have := inval.toNat_lt
  unfold act6Bits at h
  refine ⟨getLsbD_eq_of_digit ?_, getLsbD_eq_of_digit ?_, getLsbD_eq_of_digit ?_, getLsbD_eq_of_digit ?_,
    extractLsb'_eq_of_digits ?_⟩ <;> omega

theorem act6Bits_of_fields (w : BitVec 6) :
    act6Bits (w.getLsbD 0) (w.getLsbD 1) (w.getLsbD 2) (w.getLsbD 3) (w.extractLsb' 4 2) = w.toNat := by
  simp only [act6Bits, getLsbD_toNat, extractLsb'_toNat_eq_div_mod]
  omega

theorem decode_encode_act6 {i : Instr} (h : (encode i).fmt = .act6) : decode (encode i) = .ok i := by
  have hdecode (a d t v : Bool) (sel : BitVec 2) := decode_act6 _ (act6Bits_lt a d t v sel)
  have hfields (a d t v : Bool) (sel : BitVec 2) := act6_fields (toNat_ofNat_of_lt (act6Bits_lt a d t v sel))
  cases i <;> cases h <;> simp only [encode, hdecode, decodeAct6, hfields] <;> rfl

theorem encode_decodeAct6 (w : BitVec 6) : encode (decodeAct6 w) = ⟨.act6, w.toNat⟩ := by
  rw [← act6Bits_of_fields w, decodeAct6]
  generalize w.getLsbD 0 = halt, w.getLsbD 1 = data, w.getLsbD 2 = time, w.getLsbD 3 = inval, w.extractLsb' 4 2 = select
  match halt, data, time, inval with
  | true, _, _, _ => rfl
  | false, true, _, _ => rfl
  | false, false, true, _ => rfl
  | false, false, false, true => rfl
  | false, false, false, false => rfl

/-! ## CSEL2 (R75), RINGOP2 (R81) and ALUOP4 (R82): a code, and for the first two a selector above it (log entry 8) -/

theorem csel2_fields {code : Nat} {slot : BitVec 2} {w : BitVec 4} (hcode : code < 4) (h : w.toNat = code + 4 * slot.toNat) :
    (w.extractLsb' 0 2).toNat = code ∧ w.extractLsb' 2 2 = slot := by
  refine ⟨?_, extractLsb'_eq_of_digits ?_⟩
  · rw [extractLsb'_toNat_eq_div_mod]; omega
  · omega

theorem csel2_of_fields (w : BitVec 4) : (w.extractLsb' 0 2).toNat + 4 * (w.extractLsb' 2 2).toNat = w.toNat := by
  simp only [extractLsb'_toNat_eq_div_mod]
  omega

theorem decode_encode_csel2 {i : Instr} (h : (encode i).fmt = .csel2) : decode (encode i) = .ok i := by
  have hlt {code : Nat} (slot : BitVec 2) (hcode : code < 4) : code + 4 * slot.toNat < 2 ^ 4 := by omega
  have hdecode {code : Nat} (slot : BitVec 2) (hcode : code < 4) := decode_csel2 _ (hlt slot hcode)
  have hfields {code : Nat} (slot : BitVec 2) (hcode : code < 4) := csel2_fields hcode (toNat_ofNat_of_lt (hlt slot hcode))
  cases i <;> cases h <;> simp (disch := decide) only [encode, hdecode, decodeCsel2, hfields]

theorem encode_decodeCsel2 (w : BitVec 4) : encode (decodeCsel2 w) = ⟨.csel2, w.toNat⟩ := by
  rw [← csel2_of_fields w, decodeCsel2]
  have hcode := (w.extractLsb' 0 2).isLt
  generalize (w.extractLsb' 0 2).toNat = code at hcode
  interval_cases code <;> rfl

theorem ringop2Bits_lt {code : Nat} (port : ReqPort) (hcode : code < 4) : ringop2Bits code port < 2 ^ 3 := by
  cases port <;> simp only [ringop2Bits] <;> omega

theorem ringop2_fields {code : Nat} {port : ReqPort} {w : BitVec 3} (hcode : code < 4) (h : w.toNat = ringop2Bits code port) :
    (w.extractLsb' 0 2).toNat = code ∧ w.getLsbD 2 = decide (port = .record) := by
  cases port with
  | service =>
    have hw : w.toNat = code := h
    exact ⟨by rw [extractLsb'_toNat_eq_div_mod]; omega, getLsbD_eq_of_digit (by simp; omega)⟩
  | record =>
    have hw : w.toNat = code + 4 := h
    exact ⟨by rw [extractLsb'_toNat_eq_div_mod]; omega, getLsbD_eq_of_digit (by simp; omega)⟩

theorem ringop2Bits_of_fields (w : BitVec 3) :
    ringop2Bits (w.extractLsb' 0 2).toNat (if w.getLsbD 2 then .record else .service) = w.toNat := by
  have hbit := getLsbD_toNat w 2
  have hcode := extractLsb'_toNat_eq_div_mod w 0 2
  cases hport : w.getLsbD 2 with
  | false =>
    rw [hport, Bool.toNat_false] at hbit
    change (w.extractLsb' 0 2).toNat = w.toNat
    omega
  | true =>
    rw [hport, Bool.toNat_true] at hbit
    change (w.extractLsb' 0 2).toNat + 4 = w.toNat
    omega

theorem decode_encode_ringop2 {i : Instr} (h : (encode i).fmt = .ringop2) : decode (encode i) = .ok i := by
  have hdecode {code : Nat} (port : ReqPort) (hcode : code < 4) := decode_ringop2 _ (ringop2Bits_lt port hcode)
  have hfields {code : Nat} (port : ReqPort) (hcode : code < 4) := ringop2_fields hcode (toNat_ofNat_of_lt (ringop2Bits_lt port hcode))
  have hport (port : ReqPort) : (if decide (port = .record) = true then ReqPort.record else .service) = port := by cases port <;> rfl
  cases i <;> cases h <;> simp (disch := decide) only [encode, hdecode, decodeRingop2, hfields, hport]

theorem encode_decodeRingop2 (w : BitVec 3) : encode (decodeRingop2 w) = ⟨.ringop2, w.toNat⟩ := by
  rw [← ringop2Bits_of_fields w, decodeRingop2]
  have hcode := (w.extractLsb' 0 2).isLt
  generalize (w.extractLsb' 0 2).toNat = code at hcode
  interval_cases code <;> rfl

theorem decode_encode_aluop4 {i : Instr} (h : (encode i).fmt = .aluop4) : decode (encode i) = .ok i := by
  cases i <;> cases h <;> rfl

theorem encode_of_decodeAluop4 {w : Nat} {i : Instr} (h : decodeAluop4 w = .ok i) : encode i = ⟨.aluop4, w⟩ := by
  unfold decodeAluop4 at h
  split at h <;> cases h <;> rfl

/-! ## BC22 (R73; log entry 8) -/

theorem packByteCondition_toNat (bc : ByteCondition) :
    (packByteCondition bc).toNat =
      bc.ignoreValid.toNat + 2 * bc.byteSelect.toNat + 2 ^ 4 * bc.mask.toNat + 2 ^ 12 * bc.pattern.toNat +
        2 ^ 20 * bc.conditionSelect.toNat := by
  change (bc.conditionSelect ++ bc.pattern ++ bc.mask ++ bc.byteSelect ++ BitVec.ofBool bc.ignoreValid).toNat = _
  simp only [toNat_append_eq_mul_add, BitVec.toNat_ofBool]
  ring

theorem unpackByteCondition_packByteCondition (bc : ByteCondition) : unpackByteCondition (packByteCondition bc) = bc := by
  have hpack := packByteCondition_toNat bc
  have := bc.ignoreValid.toNat_lt
  rw [unpackByteCondition, ByteCondition.mk.injEq]
  refine ⟨getLsbD_eq_of_digit ?_, extractLsb'_eq_of_digits ?_, extractLsb'_eq_of_digits ?_, extractLsb'_eq_of_digits ?_,
    extractLsb'_eq_of_digits ?_⟩ <;> omega

theorem packByteCondition_unpackByteCondition (w : BitVec 22) : packByteCondition (unpackByteCondition w) = w := by
  apply BitVec.eq_of_toNat_eq
  simp only [packByteCondition_toNat, unpackByteCondition, getLsbD_toNat, extractLsb'_toNat_eq_div_mod]
  omega

theorem decode_encode_bc22 {i : Instr} (h : (encode i).fmt = .bc22) : decode (encode i) = .ok i := by
  cases i <;> cases h
  case byteMatch slot bc =>
    have hslot : ((packByteCondition bc).toNat + 2 ^ 22 * slot.toNat) / 2 ^ 22 = slot.toNat := by omega
    have hbc : BitVec.ofNat 22 ((packByteCondition bc).toNat + 2 ^ 22 * slot.toNat) = packByteCondition bc :=
      BitVec.eq_of_toNat_eq (by rw [BitVec.toNat_ofNat]; omega)
    rw [encode, decode_bc22 _ (by omega), hslot, hbc, unpackByteCondition_packByteCondition, BitVec.ofNat_toNat, BitVec.setWidth_eq]

theorem encode_byteMatch_of_lt {w : Nat} (h : w < 2 ^ 24) :
    encode (.byteMatch (BitVec.ofNat 2 (w / 2 ^ 22)) (unpackByteCondition (BitVec.ofNat 22 w))) = ⟨.bc22, w⟩ := by
  rw [encode, packByteCondition_unpackByteCondition, BitVec.toNat_ofNat, toNat_ofNat_of_lt (by omega), Nat.mod_add_div]

/-! ## ASET48 (R77, R129) -/

theorem unpackActionSet_getElem (w : BitVec 48) (i : Nat) (hi : i < 16) : (unpackActionSet w)[i] = w.extractLsb' (3 * i) 3 := by
  rw [unpackActionSet, Vector.getElem_ofFn]

theorem packActionSet_extractLsb' (e : Vector (BitVec 3) 16) (i : Nat) (hi : i < 16) : (packActionSet e).extractLsb' (3 * i) 3 = e[i] := by
  change (e[15] ++ e[14] ++ e[13] ++ e[12] ++ e[11] ++ e[10] ++ e[9] ++ e[8] ++ e[7] ++ e[6] ++ e[5] ++ e[4] ++ e[3] ++ e[2] ++ e[1] ++
    e[0]).extractLsb' (3 * i) 3 = e[i]
  interval_cases i <;>
    simp (disch := omega) only [BitVec.extractLsb'_append_eq_of_le, BitVec.extractLsb'_append_eq_of_add_le, BitVec.extractLsb'_eq_self,
      Nat.reduceMul, Nat.reduceSub]

theorem unpackActionSet_packActionSet (e : Vector (BitVec 3) 16) : unpackActionSet (packActionSet e) = e := by
  ext i hi : 1
  rw [unpackActionSet_getElem, packActionSet_extractLsb']

/-- Bit `j` of the number is bit `j % 3` of entry `j / 3`: no bit is dropped. -/
theorem unpackActionSet_injective : Function.Injective unpackActionSet := by
  intro w w' h
  apply BitVec.eq_of_getLsbD_eq
  intro j hj
  have hi : j / 3 < 16 := by omega
  have hentry : w.extractLsb' (3 * (j / 3)) 3 = w'.extractLsb' (3 * (j / 3)) 3 := by
    rw [← unpackActionSet_getElem w _ hi, ← unpackActionSet_getElem w' _ hi, h]
  have hbit := congrArg (fun x => x.getLsbD (j % 3)) hentry
  simpa [BitVec.getLsbD_extractLsb', Nat.mod_lt, Nat.div_add_mod] using hbit

theorem packActionSet_unpackActionSet (w : BitVec 48) : packActionSet (unpackActionSet w) = w :=
  unpackActionSet_injective (unpackActionSet_packActionSet _)

/-- Settles O4: entry by entry one way, and the other way because unpacking drops no bit. -/
theorem actionSetPackingRoundTrips : Obligations.ActionSetPackingRoundTrips :=
  ⟨unpackActionSet_packActionSet, packActionSet_unpackActionSet⟩

theorem decode_encode_aset48 {i : Instr} (h : (encode i).fmt = .aset48) : decode (encode i) = .ok i := by
  cases i <;> cases h
  case actionLookup entries =>
    rw [encode, decode_aset48 _ (packActionSet entries).isLt, BitVec.ofNat_toNat, BitVec.setWidth_eq, unpackActionSet_packActionSet]

/-! ## RECFLAG and CFG (log entry 8) -/

theorem decode_encode_recflag {i : Instr} (h : (encode i).fmt = .recflag) : decode (encode i) = .ok i := by
  cases i <;> cases h
  rfl

theorem decodeCfg_timerTick {timerDiv : Byte} {w : BitVec 16} (h : w.toNat = 4 + 256 * timerDiv.toNat) :
    decodeCfg w = .ok (.timerTick timerDiv) := by
  have hcode : (w.extractLsb' 0 3).toNat = 4 := by rw [extractLsb'_toNat_eq_div_mod]; omega
  have hzero : w.extractLsb' 3 5 = 0 := extractLsb'_eq_of_digits (by rw [h]; simp; omega)
  have harg : w.extractLsb' 8 8 = timerDiv := extractLsb'_eq_of_digits (by omega)
  simp only [decodeCfg, hcode, if_pos hzero, harg]

theorem decode_encode_cfg {i : Instr} (h : (encode i).fmt = .cfg) : decode (encode i) = .ok i := by
  cases i <;> cases h
  case timerTick timerDiv =>
    have hlt : 4 + 256 * timerDiv.toNat < 2 ^ 16 := by omega
    rw [encode, decode_cfg _ hlt, decodeCfg_timerTick (toNat_ofNat_of_lt hlt)]
  case valueBound maxMin => revert maxMin; decide
  case offsetBound useData1 noBkts => revert useData1 noBkts; decide
  all_goals rfl

theorem encode_of_decodeCfg {w : BitVec 16} {i : Instr} (h : decodeCfg w = .ok i) : encode i = ⟨.cfg, w.toNat⟩ := by
  have hzero {j k : Nat} (hz : w.extractLsb' j k = 0) : w.toNat / 2 ^ j % 2 ^ k = 0 := by
    rw [← extractLsb'_toNat_eq_div_mod, hz]; rfl
  simp only [decodeCfg] at h
  split at h
  case h_8 => cases h
  all_goals
    rename_i hcode
    rw [extractLsb'_toNat_eq_div_mod] at hcode
    split at h
    case isFalse => cases h
    case isTrue harg =>
      cases h
      have hz := hzero harg
      simp only [encode, Code.mk.injEq, true_and, getLsbD_toNat, extractLsb'_toNat_eq_div_mod]
      omega

/-! ## All formats -/

/-- Settles O1, format by format: the fields of an encoded word are the operands it was made from. -/
theorem decodeEncodeIsIdentity : Obligations.DecodeEncodeIsIdentity := by
  intro i
  cases hfmt : (encode i).fmt with
  | ctl7 => exact decode_encode_ctl7 hfmt
  | mop => exact decode_encode_mop hfmt
  | treq4 => exact decode_encode_treq4 hfmt
  | act6 => exact decode_encode_act6 hfmt
  | csel2 => exact decode_encode_csel2 hfmt
  | ringop2 => exact decode_encode_ringop2 hfmt
  | aluop4 => exact decode_encode_aluop4 hfmt
  | bc22 => exact decode_encode_bc22 hfmt
  | aset48 => exact decode_encode_aset48 hfmt
  | recflag => exact decode_encode_recflag hfmt
  | cfg => exact decode_encode_cfg hfmt

/-- Settles O3: each number is the encoding of its operation, which O1 decodes. -/
theorem wordsOfTheSpecDecode : Obligations.WordsOfTheSpecDecode :=
  ⟨decodeEncodeIsIdentity (.ctlShift true), decodeEncodeIsIdentity .ctlSelectAll, decodeEncodeIsIdentity (.ctlNibble 0xA false),
    decodeEncodeIsIdentity .mopSelectAll, decodeEncodeIsIdentity (.byteMatch 0 ⟨true, 2, 0xFF, 0xBB, 1⟩),
    decodeEncodeIsIdentity (.trigEnable false true false), decodeEncodeIsIdentity .trigEnableLow,
    decodeEncodeIsIdentity (.actRecordData true false 3), decodeEncodeIsIdentity (.pop .service), decodeEncodeIsIdentity .inc16Add16⟩

/-- Settles O2, format by format: a number that decodes fits its format, so it is the number of the word the format's decoder reads. -/
theorem encodeDecodeIsIdentity : Obligations.EncodeDecodeIsIdentity := by
  intro c i h
  have hfits := fits_of_decode h
  obtain ⟨fmt, w⟩ := c
  cases fmt with
  | mop => exact encode_of_decodeMop h
  | ctl7 =>
    have hw : w < 2 ^ 7 := of_decide_eq_true hfits
    cases (decode_ctl7 w hw).symm.trans h
    rw [encode_decodeCtl7, toNat_ofNat_of_lt hw]
  | treq4 =>
    have hw : w < 2 ^ 4 := of_decide_eq_true hfits
    cases (decode_treq4 w hw).symm.trans h
    rw [encode_decodeTreq4, toNat_ofNat_of_lt hw]
  | act6 =>
    have hw : w < 2 ^ 6 := of_decide_eq_true hfits
    cases (decode_act6 w hw).symm.trans h
    rw [encode_decodeAct6, toNat_ofNat_of_lt hw]
  | csel2 =>
    have hw : w < 2 ^ 4 := of_decide_eq_true hfits
    cases (decode_csel2 w hw).symm.trans h
    rw [encode_decodeCsel2, toNat_ofNat_of_lt hw]
  | ringop2 =>
    have hw : w < 2 ^ 3 := of_decide_eq_true hfits
    cases (decode_ringop2 w hw).symm.trans h
    rw [encode_decodeRingop2, toNat_ofNat_of_lt hw]
  | aluop4 => exact encode_of_decodeAluop4 ((decode_aluop4 w (of_decide_eq_true hfits)).symm.trans h)
  | bc22 =>
    have hw : w < 2 ^ 24 := of_decide_eq_true hfits
    cases (decode_bc22 w hw).symm.trans h
    exact encode_byteMatch_of_lt hw
  | aset48 =>
    have hw : w < 2 ^ 48 := of_decide_eq_true hfits
    cases (decode_aset48 w hw).symm.trans h
    rw [encode, packActionSet_unpackActionSet, toNat_ofNat_of_lt hw]
  | recflag =>
    rw [decode_recflag w (of_decide_eq_true hfits)] at h
    split at h
    case isTrue hw =>
      cases h
      rw [encode, hw]
    case isFalse => cases h
  | cfg =>
    have hw : w < 2 ^ 16 := of_decide_eq_true hfits
    rw [decode_cfg w hw] at h
    rw [encode_of_decodeCfg h, toNat_ofNat_of_lt hw]

end Sys2Proof
end

section
/-! SUPPORT. The tick of a master op under defined ports: the word it drives, the master after it, and what it leaves to the ports; with no
op in progress, and while the master waits for an answer. -/

namespace Sys2Proof.Machine

/-! ## The tick of a master op -/

section
variable {op op' : MasterOp} {inp : CaptureInputs} {s : State}

/-- The ports with the master driving the bus, when it drives the bus already. -/
theorem masterInputs_eq_of_bus (hbus : s.inputs.cap.bus = .master) : masterInputs s = s.inputs.cap := by
  rw [masterInputs, ← hbus]

theorem captureTick_masterInputs (hports : PortsDefined s) (op : MasterOp) :
    captureTick op (masterInputs s) s = .next (tickNext op (masterInputs s) s) :=
  captureTick_of_defined hports.1 (grantsServicePush_of_portsDefined hports rfl)

/-- R91: the word that enters node 0 is the one the chain and its outputs go by. -/
theorem drives_tickNext {w : CtlWord} (hword : tickCtl op inp s = w) : Drives w s (tickNext op inp s) := by
  subst hword
  exact ⟨rfl, rfl, rfl⟩

/-- Nothing outside the chain and the master looks at the bus or at the master op. -/
theorem agreeOutsideChain_masterInputs (op : MasterOp) (s : State) :
    AgreeOutsideChain (tickNext op (masterInputs s) s) (tickNext .none s.inputs.cap s) :=
  ⟨rfl, rfl, rfl, rfl, rfl, rfl, rfl, rfl, rfl, rfl, rfl, rfl⟩

/-- R109 to R116: with no op in progress, a tick in which the master has the op `op'` drives that op's first word and starts it. -/
theorem masterTick_of_ready (hports : PortsDefined s) (hready : s.master.ready = true) (hop : tickOp op (masterInputs s) s = op') :
    ∃ t, captureTick op (masterInputs s) s = .next t ∧ Drives (firstWord op' s.master) s t ∧
      t.master = masterStart op' { s.master with selected := chainSelected s.nodes } ∧
      AgreeOutsideChain t (tickNext .none s.inputs.cap s) ∧ KeepsSurroundings s t := by
  subst hop
  exact ⟨tickNext op (masterInputs s) s, captureTick_masterInputs hports op, drives_tickNext (masterWord_of_ready hready),
    masterDriveNext_of_ready hready, agreeOutsideChain_masterInputs op s, keepsSurroundings_tickNext op (masterInputs s) s⟩

/-- An op presented is the op the master has in the tick. -/
theorem masterTick_of_presented (hports : PortsDefined s) (hready : s.master.ready = true) (hop : op ≠ .none) :
    ∃ t, captureTick op (masterInputs s) s = .next t ∧ Drives (firstWord op s.master) s t ∧
      t.master = masterStart op { s.master with selected := chainSelected s.nodes } ∧
      AgreeOutsideChain t (tickNext .none s.inputs.cap s) ∧ KeepsSurroundings s t :=
  masterTick_of_ready hports hready (opOf_presented hop)

/-- R109: the master has no op in a tick in which none is presented, but for the tick in which it follows a time-out up. -/
theorem tickOp_none (h : s.master.seq = .idle ∨ inp.masterFollows = false) : tickOp .none inp s = .none := by
  rcases h with hidle | hfollows
  · exact opOf_of_seq (by rw [hidle]; decide)
  · rw [tickOp, hfollows, opOf_false]

/-- R117, R184, R188: the tick in which the master follows a time-out up. -/
theorem tickOp_selectNone (hseq : s.master.seq = .timedOut) (hfollows : inp.masterFollows = true) :
    tickOp .none inp s = .selectNone := by
  rw [tickOp, hfollows, opOf_timedOut hseq]

end

/-- R97: the nodes after the broadcast the master drives. -/
theorem nodes_of_drives_broadcast {s t : State} {all : Bool} (h : Drives ⟨true, 1, false, all⟩ s t) :
    t.nodes = s.nodes.map (fun n => { n with token := all, selected := false }) :=
  h.1.trans (chain_broadcast all s.nodes).1

/-- R95: the nodes after `CTL_IDLE`. -/
theorem nodes_of_drives_idle {s t : State} (h : Drives ⟨false, 0, false, false⟩ s t) : t.nodes = s.nodes.map Node.deselected :=
  h.1.trans (chain_deselect rfl rfl s.nodes).1

/-- R72, R86 (U5), log entry 21. Settles O21: the arm of the reserved code is the refusal. -/
theorem reservedMasterOpIsRefused : Obligations.ReservedMasterOpIsRefused := by
  intro s
  rfl

/-- Settles O16: each clause is the tick of one op the master has, presented or, in a tick in which none is, by `tickOp`. -/
theorem oneWordMasterOps : Obligations.OneWordMasterOps := by
  intro s hports hready
  refine ⟨?quiet, ?selectNone, ?selectAll, ?clearEnable⟩
  case quiet =>
    rintro o (rfl | ⟨rfl, hbus, hnone⟩)
    · exact masterTick_of_presented hports hready (op := .mopNone) (by decide)
    · rw [← masterInputs_eq_of_bus hbus]
      exact masterTick_of_ready hports hready (tickOp_none hnone)
  case selectNone =>
    rintro o (rfl | ⟨rfl, hbus, hseq, hfollows⟩)
    · obtain ⟨t, htick, hdrives, hrest⟩ := masterTick_of_presented hports hready (op := .selectNone) (by decide)
      exact ⟨t, htick, hdrives, nodes_of_drives_broadcast hdrives, hrest⟩
    · rw [← masterInputs_eq_of_bus hbus]
      obtain ⟨t, htick, hdrives, hrest⟩ := masterTick_of_ready hports hready (tickOp_selectNone hseq hfollows)
      exact ⟨t, htick, hdrives, nodes_of_drives_broadcast hdrives, hrest⟩
  case selectAll =>
    obtain ⟨t, htick, hdrives, hrest⟩ := masterTick_of_presented hports hready (op := .selectAll) (by decide)
    exact ⟨t, htick, hdrives, nodes_of_drives_broadcast hdrives, hrest⟩
  case clearEnable =>
    obtain ⟨t, htick, hdrives, hrest⟩ := masterTick_of_presented hports hready (op := .clearEnable) (by decide)
    exact ⟨t, htick, hdrives, nodes_of_drives_idle hdrives, hrest⟩

/-- Settles O18: both ops are presented, so the tick is that of their first word. -/
theorem selectAndEnableBegin : Obligations.SelectAndEnableBegin := by
  intro s k hports hready
  refine ⟨?select, ?enable⟩
  case select =>
    obtain ⟨t, htick, hdrives, hrest⟩ := masterTick_of_presented hports hready (op := .select k) (nofun)
    exact ⟨t, htick, hdrives, nodes_of_drives_broadcast hdrives, hrest⟩
  case enable => exact masterTick_of_presented hports hready (op := .enable) (by decide)

/-! ## The waiting master -/

section
variable {timeout : Nat} {selected : Bool} {m : Master}

/-- R112 step (5): the select is answered. -/
theorem masterWait_of_selected (hsel : selected = true) :
    masterWait timeout selected m = { m with completed := true, seq := .idle } := by
  rw [masterWait, if_pos hsel]

/-- R117: the watchdog has run out; `m_enable` stays. -/
theorem masterWait_of_timeout (hsel : ¬selected = true) (hwd : m.wd = timeout) :
    masterWait timeout selected m = { m with completed := true, seq := .timedOut } := by
  rw [masterWait, if_neg hsel, if_pos hwd]

/-- R117: neither answered nor timed out. -/
theorem masterWait_of_counting (hsel : ¬selected = true) (hwd : m.wd ≠ timeout) :
    masterWait timeout selected m = { m with wd := m.wd + 1 } := by
  rw [masterWait, if_neg hsel, if_neg hwd]

end

/-- Settles O19: the tick of a waiting master is `masterWait` behind `CTL_HOLD`, and the three ends of the statement are its three
branches. -/
theorem waitingMasterEndsAnsweredOrTimedOut : Obligations.WaitingMasterEndsAnsweredOrTimedOut := by
  intro s hports hbus hwait
  have hword : tickCtl .none s.inputs.cap s = wordHold := by simp only [tickCtl, hbus, busWord, masterWord, hwait]
  have hmaster : (tickNext .none s.inputs.cap s).master =
      masterWait s.params.masterTimeout (chainSelected s.nodes) { s.master with selected := chainSelected s.nodes } := by
    simp only [tickNext_master, hbus, masterNext, masterDriveNext, hwait]
  have hkeeps : KeepsSurroundings s (tickNext .none s.inputs.cap s) := keepsSurroundings_tickNext ..
  refine ⟨tickNext .none s.inputs.cap s, captureTick_of_defined hports.1 (grantsServicePush_of_portsDefined hports rfl),
    drives_tickNext hword, ?_⟩
  rw [hmaster]
  by_cases hsel : chainSelected s.nodes = true
  · rw [masterWait_of_selected hsel, if_pos hsel]
    exact ⟨rfl, rfl, rfl, ⟨rfl, rfl, rfl⟩, hkeeps⟩
  · rw [if_neg hsel]
    by_cases hwd : s.master.wd = s.params.masterTimeout
    · rw [masterWait_of_timeout (m := { s.master with selected := chainSelected s.nodes }) hsel hwd, if_pos hwd]
      exact ⟨rfl, rfl, rfl, ⟨rfl, rfl, rfl⟩, hkeeps⟩
    · rw [masterWait_of_counting (m := { s.master with selected := chainSelected s.nodes }) hsel hwd, if_neg hwd]
      exact ⟨rfl, rfl, rfl, ⟨rfl, hwait, rfl⟩, hkeeps⟩

end Sys2Proof.Machine
end

section
/-! SUPPORT. A capture tick under another trigger configuration: the trigger state of a request word, and the tick of a reserved byte
source. -/

namespace Sys2Proof.Machine

/-- Everything before the byte matcher does not look at the trigger configuration. -/
theorem sameSampleSide_of_tcfg (op : MasterOp) (c : TriggerConfig) (inp : CaptureInputs) (s : State) :
    SameSampleSide (tickNext op { inp with tcfg := c } s) (tickNext op inp s) :=
  ⟨rfl, rfl, rfl, rfl, rfl⟩

/-! ## The request words -/

section
variable {c : TriggerConfig} {fireHalt : Bool} {t : TriggerState}

/-- R135: a low level, `clear` and `stop` each end the session, whatever else the tick does. -/
theorem triggerNext_running_of_ended (h : c.enable = false ∨ c.clear = true ∨ c.stop = true) :
    (triggerNext c fireHalt t).running = false := by
  rcases h with h | h | h <;> simp [triggerNext, h]

/-- R135: with nothing that ends the session, the halt comes before `start`, and `start` before holding. -/
theorem triggerNext_running_of_enabled (henable : c.enable = true) (hclear : c.clear = false) (hstop : c.stop = false) :
    (triggerNext c fireHalt t).running = (!fireHalt && (c.start || t.running)) := by
  cases fireHalt <;> cases hstart : c.start <;> simp [triggerNext, henable, hclear, hstop, hstart]

end

/-- R137, R139: with nothing that ends the session, the halt fires in a running trigger whose descriptor has it. -/
theorem tickFired_halt_of_enabled {inp : CaptureInputs} {s : State} (henable : inp.tcfg.enable = true) (hclear : inp.tcfg.clear = false)
    (hstop : inp.tcfg.stop = false) : (tickFired inp s).halt = (s.trig.running && (tickDescriptor inp s).haltCapture) := by
  simp [tickFired, fireActions, triggerActive, henable, hclear, hstop]

/-- R80: every `TREQ4` word is a capture tick with its four bits at the port. -/
theorem exec_requestWord {s : State} {i : Instr} {e c st sp : Bool} (hports : PortsDefined s)
    (hi : i = .trigEnable c st sp ∧ e = true ∨ i = .trigClear st sp ∧ e = false ∧ c = true ∨
      i = .trigStart sp ∧ e = false ∧ c = false ∧ st = true ∨ i = .trigStop ∧ e = false ∧ c = false ∧ st = false ∧ sp = true ∨
      i = .trigEnableLow ∧ e = false ∧ c = false ∧ st = false ∧ sp = false) :
    exec i s = .next (tickNext .none (requestInputs e c st sp s) s) := by
  have hinputs : captureInputsOf i s = some (.none, requestInputs e c st sp s) := by
    rcases hi with ⟨rfl, rfl⟩ | ⟨rfl, rfl, rfl⟩ | ⟨rfl, rfl, rfl, rfl⟩ | ⟨rfl, rfl, rfl, rfl, rfl⟩ | ⟨rfl, rfl, rfl, rfl, rfl⟩ <;> rfl
  exact exec_of_portsDefined hports hinputs rfl rfl

/-- Settles O22: all 16 words are one tick, and its TriggerState goes by the branches of R135. -/
theorem requestWordsSetTheTriggerState : Obligations.RequestWordsSetTheTriggerState := by
  intro s i e c st sp hports hi
  refine ⟨tickNext .none (requestInputs e c st sp s) s, exec_requestWord hports hi, rfl, rfl,
    triggerNext_running_of_ended (c := (requestInputs e c st sp s).tcfg), ?enabled, sameSampleSide_of_tcfg ..,
    keepsSurroundings_tickNext ..⟩
  case enabled =>
    intro henable hclear hstop
    rw [tickNext_trig, tickTrigger, triggerNext_running_of_enabled henable hclear hstop,
      tickFired_halt_of_enabled henable hclear hstop]
    rfl

/-! ## A reserved byte source -/

/-- R125: a condition at the port is a capture tick under defined ports, whatever its byte source. -/
theorem exec_condition {s : State} {i : Instr} {slot : BitVec 2} {bc : ByteCondition} (hports : PortsDefined s)
    (hi : captureInputsOf i s = some (.none, conditionInputs slot bc s)) :
    ∃ t, exec i s = .next t ∧ SameSampleSide t (tickNext .none s.inputs.cap s) ∧
      t.trig.enabled = s.inputs.cap.tcfg.enable ∧ t.trig.clearing = s.inputs.cap.tcfg.clear ∧ KeepsSurroundings s t :=
  ⟨tickNext .none (conditionInputs slot bc s) s, exec_of_portsDefined hports hi rfl rfl, sameSampleSide_of_tcfg .., rfl, rfl,
    keepsSurroundings_tickNext ..⟩

/-- Settles O34: the free byte goes into the condition's result only. -/
theorem reservedByteSourceRunsOn : Obligations.ReservedByteSourceRunsOn := by
  rintro s slot i hports (rfl | rfl)
  · exact exec_condition hports rfl
  · exact exec_condition hports rfl

end Sys2Proof.Machine
end

section
/-! SUPPORT. A capture tick under another record op: the request a recorded sample makes, the ring operation it becomes, and what that
stores. -/

namespace Sys2Proof.Machine

/-! ## The record request -/

section
variable {inp : CaptureInputs} {s : State}

/-- R138: a sample is recorded only in a tick that invalidates nothing. -/
theorem tickFired_inval_of_data (hdata : (tickFired inp s).data = true) : (tickFired inp s).inval = false := by
  simp only [tickFired, fireActions, Bool.and_eq_true, Bool.not_eq_true'] at hdata ⊢
  obtain ⟨-, -, hinval, -⟩ := hdata
  rw [hinval, Bool.and_false]

/-- R158: the request that a recorded sample makes, if the record op records. -/
theorem tickRecord_of_data (hdata : (tickFired inp s).data = true) (hop : inp.rcfg.recordOp = 2 ∨ inp.rcfg.recordOp = 0) :
    tickRecord inp s =
      { valid := true, invalidate := false, op := inp.rcfg.recordOp, aluOp := inp.rcfg.aluOp, address := tickOffset inp s,
        v := (tickBounded inp s).lane.lane (tickDescriptor inp s).captureDataSelect, n := 1 } := by
  rcases hop with hop | hop <;> simp [tickRecord, recordRequest, hdata, tickFired_inval_of_data hdata, hop]

/-- R158 (U6): neither `reset_ptrs` nor `pop` records as record op. -/
theorem tickRecord_invalid_of_recordOp (hpush : inp.rcfg.recordOp ≠ 2) (haccess : inp.rcfg.recordOp ≠ 0) :
    (tickRecord inp s).valid = false := by
  simp only [tickRecord, recordRequest, decide_eq_false hpush, decide_eq_false haccess, Bool.or_self, Bool.false_and]

/-- R158, R160: a recorded sample under `push`. -/
theorem tickRingOp_of_recordedPush (hdata : (tickFired inp s).data = true) (hop : inp.rcfg.recordOp = 2) :
    tickRingOp inp s = .push ⟨inp.rcfg.aluOp, (tickBounded inp s).lane.lane (tickDescriptor inp s).captureDataSelect, 1⟩ := by
  have hrecord := tickRecord_of_data hdata (.inl hop)
  rw [tickRingOp, tickGrant_of_record (by rw [hrecord]), hrecord]
  simp [grantedOp, hop]

/-- R158, R160: a recorded sample under `access`. -/
theorem tickRingOp_of_recordedAccess (hdata : (tickFired inp s).data = true) (hop : inp.rcfg.recordOp = 0) :
    tickRingOp inp s = .access (tickOffset inp s)
      (some ⟨inp.rcfg.aluOp, (tickBounded inp s).lane.lane (tickDescriptor inp s).captureDataSelect, 1⟩) := by
  have hrecord := tickRecord_of_data hdata (.inr hop)
  rw [tickRingOp, tickGrant_of_record (by rw [hrecord]), hrecord]
  simp [grantedOp, hop]

/-- R159, R180: a tick without a record request and without a service request answers nothing. -/
theorem tickSvcResp_idle (hrecord : (tickRecord inp s).valid = false) (hservice : (serviceRequest s.xing inp).valid = false) :
    tickSvcResp inp s = ⟨false, false, 0⟩ := by
  rw [tickSvcResp, tickGrant, arbitrate, if_neg (ne_true_of_eq_false hrecord), if_neg (ne_true_of_eq_false hservice)]
  rfl

end

/-! ## What the ring op stores -/

/-- R54: a write keeps every other word. -/
theorem keepsStoreBut_write (m : Memory) (a : RingAddr) (v : Word) : KeepsStoreBut (some a) m (Memory.write m a v) :=
  fun _ hb => Memory.read_write_ne m v fun hab => hb (congrArg some hab)

section
variable {inp : CaptureInputs} {s : State} {args : AluArgs} {a : RingAddr}

/-- R163: a tick that pushes into a buffer with room. -/
theorem tickRing_of_push_room (hop : tickRingOp inp s = .push args) (hroom : s.ring.occ ≠ 2048) :
    tickRing inp s =
      ⟨Memory.write s.ring.mem (ptrAddr s.ring.wp)
          (alu (Config.reservedAluResult s.free) args (Memory.read s.ring.mem (ptrAddr s.ring.wp))),
        s.ring.wp + 1, s.ring.rp, true⟩ := by
  rw [tickRing, hop]
  exact pushRing_room _ args s.ring hroom

/-- R163: a tick that pushes into a full buffer. -/
theorem tickRing_of_push_full (hop : tickRingOp inp s = .push args) (hfull : s.ring.occ = 2048) : tickRing inp s = s.ring := by
  rw [tickRing, hop]
  exact pushRing_full _ args s.ring hfull

/-- R161: a tick that combines a word in place. -/
theorem tickRing_of_access (hop : tickRingOp inp s = .access a (some args)) :
    tickRing inp s =
      { s.ring with mem := Memory.write s.ring.mem a (alu (Config.reservedAluResult s.free) args (Memory.read s.ring.mem a)) } := by
  rw [tickRing, hop]
  rfl

/-- R163, R178: a tick that pushes into a full buffer reports it. -/
theorem tickNext_overflow_of_push_full {op : MasterOp} (hop : tickRingOp inp s = .push args) (hfull : s.ring.occ = 2048) :
    (tickNext op inp s).fifo.overflow = true := by
  rw [tickNext_fifo, hop]
  exact decide_eq_true hfull

end

/-- An addressing op as record op is a capture tick under defined ports. -/
theorem exec_recordOp {s : State} {i : Instr} {code : BitVec 2} (hports : PortsDefined s)
    (hi : captureInputsOf i s = some (.none, ringOpInputs code .record s)) :
    exec i s = .next (tickNext .none (ringOpInputs code .record s) s) :=
  exec_of_portsDefined hports hi rfl rfl

/-- R158 (U6): a record op that records nothing, in a tick without a service request. -/
theorem exec_unrecordingOp {s : State} {i : Instr} {code : BitVec 2} (hports : PortsDefined s)
    (hi : captureInputsOf i s = some (.none, ringOpInputs code .record s)) (hpush : code ≠ 2) (haccess : code ≠ 0)
    (hservice : (serviceRequest s.xing s.inputs.cap).valid = false) :
    ∃ t, exec i s = .next t ∧ t.ring = s.ring ∧ t.svcResp = ⟨false, false, 0⟩ ∧ KeepsSurroundings s t := by
  have hrecord : (tickRecord (ringOpInputs code .record s) s).valid = false := tickRecord_invalid_of_recordOp hpush haccess
  exact ⟨tickNext .none (ringOpInputs code .record s) s, exec_recordOp hports hi, tickRing_idle hrecord hservice,
    tickSvcResp_idle hrecord hservice, keepsSurroundings_tickNext ..⟩

/-- Settles O38: the record op decides the ring operation of the tick, and with it the ring after the tick. -/
theorem recordOpChoosesPushOrAccess : Obligations.RecordOpChoosesPushOrAccess := by
  intro s hports hdata halu v
  let args : AluArgs := ⟨s.inputs.cap.rcfg.aluOp, v, 1⟩
  have hpush : tickRingOp (ringOpInputs 2 .record s) s = .push args := tickRingOp_of_recordedPush hdata rfl
  have haccess : tickRingOp (ringOpInputs 0 .record s) s = .access (tickOffset s.inputs.cap s) (some args) :=
    tickRingOp_of_recordedAccess hdata rfl
  refine ⟨?room, ?full, ?access, ?unrecorded⟩
  case room =>
    intro hroom
    refine ⟨tickNext .none (ringOpInputs 2 .record s) s, exec_recordOp hports rfl, ?_⟩
    rw [tickNext_ring, tickRing_of_push_room hpush hroom]
    exact ⟨rfl, rfl, rfl, (Memory.read_write_self ..).trans (alu_defined halu ..), keepsStoreBut_write _ _ _,
      keepsSurroundings_tickNext ..⟩
  case full =>
    intro hfull
    exact ⟨tickNext .none (ringOpInputs 2 .record s) s, exec_recordOp hports rfl, tickRing_of_push_full hpush hfull,
      tickNext_overflow_of_push_full hpush hfull, keepsSurroundings_tickNext ..⟩
  case access =>
    refine ⟨tickNext .none (ringOpInputs 0 .record s) s, exec_recordOp hports rfl, ?_⟩
    rw [tickNext_ring, tickRing_of_access haccess]
    exact ⟨rfl, rfl, (Memory.read_write_self ..).trans (alu_defined halu ..), keepsStoreBut_write _ _ _, keepsSurroundings_tickNext ..⟩
  case unrecorded =>
    rintro i (rfl | rfl) hservice
    · exact exec_unrecordingOp hports rfl (by decide) (by decide) hservice
    · exact exec_unrecordingOp hports rfl (by decide) (by decide) hservice

end Sys2Proof.Machine
end

section
/-! SUPPORT. R106, R107: a tick leaves at most one node of the chain SELECTED, and that node holds the token, whatever the chain was before:
a word with enable low deselects every node, and one with enable high all but the node that claims it. -/

namespace Sys2Proof.Machine

/-! ## One node -/

theorem nodeNext_of_disabled {w : CtlWord} (hlow : w.enable = false) (n : Node) :
    nodeNext w n =
      { n with selected := false, token := if w.valid && decide (w.data.toNat ≤ 1) then w.select else n.token } := by
  rw [nodeNext, if_pos hlow]

/-- R93: no node raises the enable of a word. -/
theorem nodeForward_enable_of_disabled {w : CtlWord} (hlow : w.enable = false) (n : Node) : (nodeForward w n).enable = false := by
  unfold nodeForward
  split
  · rfl
  · split
    · exact hlow
    · exact hlow

/-- R100: the token holder that was UNSELECTED. -/
theorem nodeNext_of_claim_unselected {w : CtlWord} {n : Node} (he : w.enable = true) (ht : n.token = true)
    (hsel : n.selected = false) : nodeNext w n = { n with selected := true, muxCtl := 0, nibIdx := 0 } := by
  simp only [nodeNext, he, ht, hsel, Bool.true_eq_false, if_false, if_true]

/-- R101: the token holder that was SELECTED takes a nibble while its index is below 8. -/
theorem nodeNext_of_claim_nibble {w : CtlWord} {n : Node} (he : w.enable = true) (ht : n.token = true) (hsel : n.selected = true)
    (hv : w.valid = true) (hidx : n.nibIdx.toNat < 8) :
    nodeNext w n = { n with muxCtl := setNibble n.muxCtl n.nibIdx w.data, nibIdx := n.nibIdx + 1 } := by
  simp only [nodeNext, he, ht, hsel, hv, hidx, Bool.true_eq_false, if_false, if_true, decide_true, Bool.and_self]

/-- R101, R102: the token holder that was SELECTED stays as it is without a nibble, and when its index is past the last field. -/
theorem nodeNext_of_claim_kept {w : CtlWord} {n : Node} (he : w.enable = true) (ht : n.token = true) (hsel : n.selected = true)
    (h : w.valid = false ∨ 8 ≤ n.nibIdx.toNat) : nodeNext w n = n := by
  have hkept : (w.valid && decide (n.nibIdx.toNat < 8)) = false := by
    rcases h with hv | hidx
    · rw [hv, Bool.false_and]
    · rw [decide_eq_false (Nat.not_lt.mpr hidx), Bool.and_false]
  simp only [nodeNext, he, ht, hsel, hkept, Bool.true_eq_false, Bool.false_eq_true, if_false, if_true]

/-- R92, R107: a node that claims keeps its token and is SELECTED afterwards. -/
theorem nodeNext_of_claim {w : CtlWord} {n : Node} (he : w.enable = true) (ht : n.token = true) :
    (nodeNext w n).token = true ∧ (nodeNext w n).selected = true := by
  cases hsel : n.selected with
  | false => rw [nodeNext_of_claim_unselected he ht hsel]; exact ⟨ht, rfl⟩
  | true =>
    by_cases h : w.valid = false ∨ 8 ≤ n.nibIdx.toNat
    · rw [nodeNext_of_claim_kept he ht hsel h]; exact ⟨ht, hsel⟩
    · obtain ⟨hv, hidx⟩ := not_or.mp h
      rw [nodeNext_of_claim_nibble he ht hsel (Bool.not_eq_false _ ▸ hv) (Nat.lt_of_not_le hidx)]
      exact ⟨ht, hsel⟩

/-- R25: a nibble index stays within 0..8. -/
theorem nodeNext_nibIdx_le {n : Node} (w : CtlWord) (h : n.nibIdx.toNat ≤ 8) : (nodeNext w n).nibIdx.toNat ≤ 8 := by
  unfold nodeNext
  split
  · exact h
  · split
    · split
      · exact Nat.zero_le 8
      · split
        next hnibble =>
          obtain ⟨-, hidx⟩ := Bool.and_eq_true_iff.mp hnibble
          have hidx : n.nibIdx.toNat < 8 := of_decide_eq_true hidx
          simp only
          bv_omega
        next => exact h
    · exact h

/-! ## The chain -/

/-- R95 to R98: a word with enable low leaves every node UNSELECTED. -/
theorem chainNext_unselected_of_disabled {w : CtlWord} (hlow : w.enable = false) (ns : List Node) :
    ∀ n ∈ chainNext w ns, n.selected = false := by
  induction ns generalizing w with
  | nil => exact nofun
  | cons n ns ih =>
    intro m hm
    rcases List.mem_cons.mp hm with rfl | hm
    · rw [nodeNext_of_disabled hlow]
    · exact ih (nodeForward_enable_of_disabled hlow n) m hm

theorem unselected_of_mem_deselected {ns : List Node} {m : Node} (hm : m ∈ ns.map Node.deselected) : m.selected = false := by
  obtain ⟨n, -, rfl⟩ := List.mem_map.mp hm
  rfl

/-- What a tick leaves of the selection: no node is SELECTED, or one that holds the token is, and the nodes before and behind it are
not. -/
theorem chainNext_selection (w : CtlWord) (ns : List Node) :
    (∀ m ∈ chainNext w ns, m.selected = false) ∨
      ∃ before n after, chainNext w ns = before ++ n :: after ∧ n.token = true ∧ n.selected = true ∧
        (∀ m ∈ before, m.selected = false) ∧ ∀ m ∈ after, m.selected = false := by
  cases he : w.enable with
  | false => exact .inl (chainNext_unselected_of_disabled he ns)
  | true =>
    rcases chain_first_token ns with hnone | ⟨before, n, after, rfl, hb, ht⟩
    · left
      rw [(chain_pass he hnone).1]
      exact fun _ => unselected_of_mem_deselected
    · obtain ⟨htoken, hselected⟩ := nodeNext_of_claim he ht
      exact .inr ⟨_, _, _, (chain_claim he hb ht).1, htoken, hselected, fun _ => unselected_of_mem_deselected,
        fun _ => unselected_of_mem_deselected⟩

theorem countP_selected_of_unselected {ns : List Node} (h : ∀ m ∈ ns, m.selected = false) :
    ns.countP (fun m => m.selected) = 0 :=
  List.countP_eq_zero.mpr fun m hm => ne_true_of_eq_false (h m hm)

/-- R107: at most one node is SELECTED after a tick. -/
theorem countP_selected_chainNext_le_one (w : CtlWord) (ns : List Node) :
    (chainNext w ns).countP (fun m => m.selected) ≤ 1 := by
  rcases chainNext_selection w ns with hnone | ⟨before, n, after, hsplit, -, hn, hb, ha⟩
  · rw [countP_selected_of_unselected hnone]
    exact Nat.zero_le 1
  · rw [hsplit, List.countP_append, List.countP_cons, countP_selected_of_unselected hb, countP_selected_of_unselected ha, hn]
    decide

/-- R106: a node that is SELECTED after a tick holds the token. -/
theorem token_of_selected_chainNext {w : CtlWord} {ns : List Node} {m : Node} (hm : m ∈ chainNext w ns) (hsel : m.selected = true) :
    m.token = true := by
  rcases chainNext_selection w ns with hnone | ⟨before, n, after, hsplit, ht, -, hb, ha⟩
  · exact absurd hsel (ne_true_of_eq_false (hnone m hm))
  · rw [hsplit] at hm
    rcases List.mem_append.mp hm with hm | hm
    · exact absurd hsel (ne_true_of_eq_false (hb m hm))
    · rcases List.mem_cons.mp hm with rfl | hm
      · exact ht
      · exact absurd hsel (ne_true_of_eq_false (ha m hm))

/-- R25: every nibble index of the chain stays within 0..8. -/
theorem chainNext_nibIdx_le {ns : List Node} (h : ∀ n ∈ ns, n.nibIdx.toNat ≤ 8) (w : CtlWord) :
    ∀ n ∈ chainNext w ns, n.nibIdx.toNat ≤ 8 := by
  induction ns generalizing w with
  | nil => exact nofun
  | cons n ns ih =>
    obtain ⟨hn, hns⟩ := List.forall_mem_cons.mp h
    intro m hm
    rcases List.mem_cons.mp hm with rfl | hm
    · exact nodeNext_nibIdx_le w hn
    · exact ih hns (nodeForward w n) m hm

/-- Settles O15: a tick that is no reset tick is one pass of a word through the chain, and a reset leaves no node SELECTED. -/
theorem atMostOneNodeIsSelectedAfterATick : Obligations.AtMostOneNodeIsSelectedAfterATick := by
  intro op inp s t htick
  rcases captureTick_next htick with ⟨-, -, rfl⟩ | ⟨-, -, rfl⟩
  · have hnone : ∀ m ∈ (resetCapture s).nodes, m.selected = false := by
      intro m hm
      rw [resetCapture_nodes_eq_replicate] at hm
      rw [List.eq_of_mem_replicate hm]
      rfl
    exact ⟨by rw [countP_selected_of_unselected hnone]; exact Nat.zero_le 1,
      fun m hm hsel => absurd hsel (ne_true_of_eq_false (hnone m hm))⟩
  · exact ⟨countP_selected_chainNext_le_one .., fun m hm => token_of_selected_chainNext hm⟩

end Sys2Proof.Machine
end

section
/-! SUPPORT. The invariant part by part: what a tick of either domain and the reset of both leave of it, and from these every step. -/

namespace Sys2Proof.Machine

/-! ## The chain and the master -/

theorem chainOk_iff (ns : List Node) :
    chainOk ns = true ↔
      (∀ n ∈ ns, (n.selected = true → n.token = true) ∧ n.nibIdx.toNat ≤ 8) ∧ ns.countP (fun n => n.selected) ≤ 1 := by
  simp only [chainOk, Bool.and_eq_true, List.all_eq_true, Bool.or_eq_true, Bool.not_eq_true', decide_eq_true_eq,
    ← Bool.not_eq_true, ← imp_iff_not_or]

/-- R106, R107, R25: only the nibble indices need the chain before the tick. -/
theorem chainOk_chainNext {ns : List Node} (w : CtlWord) (h : chainOk ns = true) : chainOk (chainNext w ns) = true := by
  obtain ⟨hnodes, -⟩ := (chainOk_iff ns).mp h
  exact (chainOk_iff _).mpr
    ⟨fun m hm => ⟨token_of_selected_chainNext hm, chainNext_nibIdx_le (fun n hn => (hnodes n hn).2) w m hm⟩,
      countP_selected_chainNext_le_one w ns⟩

/-- R116, R117: whoever drives the bus (log entry 14). -/
theorem masterOk_masterNext {timeout : Nat} {m : Master} (bus : BusDriver) (op : MasterOp) (sel : Bool)
    (h : masterOk timeout m = true) : masterOk timeout (masterNext bus timeout op sel m) = true := by
  cases bus with
  | master => exact masterOk_masterDriveNext op sel h
  | direct w => exact h

/-! ## The ring and its response -/

theorem ringOk_iff (r : Ring) :
    ringOk r = true ↔ Memory.wf r.mem = true ∧ r.occ.toNat ≤ 2048 ∧ (r.lastPushLive = true → 1 ≤ r.occ.toNat) := by
  simp only [ringOk, Bool.and_eq_true, Bool.or_eq_true, Bool.not_eq_true', decide_eq_true_eq, ← Bool.not_eq_true,
    ← imp_iff_not_or]

/-- R34, R163: a push into a buffer with room leaves at most 2048 entries, the live one among them. -/
theorem ringOk_pushRing {r : Ring} (rsv : Word) (args : AluArgs) (h : ringOk r = true) : ringOk (pushRing rsv args r) = true := by
  by_cases hfull : r.occ = 2048
  · rwa [pushRing_full rsv args r hfull]
  · obtain ⟨hmem, hocc, -⟩ := (ringOk_iff r).mp h
    rw [pushRing_room rsv args r hfull, ringOk_iff, occ_wp_add_one]
    unfold Ring.occ at hocc hfull
    exact ⟨Memory.wf_write _ _ _ hmem, by bv_omega, fun _ => by bv_omega⟩

/-- R34, R164: a push stays live under a pop only if an entry is left. -/
theorem ringOk_popRing {r : Ring} (h : ringOk r = true) : ringOk (popRing r) = true := by
  by_cases hempty : r.occ = 0
  · rwa [popRing_empty r hempty]
  · obtain ⟨hmem, hocc, -⟩ := (ringOk_iff r).mp h
    rw [popRing_some r hempty, ringOk_iff, occ_rp_add_one]
    unfold Ring.occ at hocc hempty ⊢
    refine ⟨hmem, by bv_omega, fun hlive => ?_⟩
    obtain ⟨hone, -⟩ := Bool.and_eq_true_iff.mp hlive
    have hone : r.wp - r.rp ≠ 1 := of_decide_eq_true hone
    bv_omega

/-- R34, R165: the push taken back was in the buffer. -/
theorem ringOk_retractRing {r : Ring} (recordOp : BitVec 2) (h : ringOk r = true) : ringOk (retractRing recordOp r) = true := by
  unfold retractRing
  split
  next hlive =>
    obtain ⟨hmem, hocc, hone⟩ := (ringOk_iff r).mp h
    have hone := hone hlive.2
    rw [ringOk_iff, occ_wp_sub_one]
    unfold Ring.occ at hocc hone
    exact ⟨hmem, by bv_omega, nofun⟩
  next => exact h

/-- R34, R166: no operation takes the ring out of its invariant. -/
theorem ringOk_runRing {r : Ring} (rsv : Word) (op : RingOp) (h : ringOk r = true) : ringOk (runRing rsv op r) = true := by
  have hmem : Memory.wf (runRing rsv op r).mem = true := runRing_wf rsv op r ((ringOk_iff r).mp h).1
  cases op with
  | idle => exact h
  | access address write =>
    obtain ⟨-, hocc, hlive⟩ := (ringOk_iff r).mp h
    refine (ringOk_iff _).mpr ⟨hmem, ?_, ?_⟩ <;> simpa only [runRing, Ring.occ, accessRing_wp, accessRing_rp, accessRing_lastPushLive]
  | resetPtrs => exact (ringOk_zero_pointers r.mem).trans hmem
  | push args => exact ringOk_pushRing rsv args h
  | pop => exact ringOk_popRing h
  | retract recordOp => exact ringOk_retractRing recordOp h

/-- R180: a response without `ack` or without `valid` carries zeroes. -/
theorem responseOk_svcNext (ack : Bool) (op : RingOp) (r : Ring) : responseOk (svcNext ack op r) = true := by
  cases ack with
  | false => rfl
  | true =>
    cases op with
    | pop => rw [svcNext_pop]; split <;> rfl
    | access address write => rfl
    | idle => rfl
    | resetPtrs => rfl
    | push args => rfl
    | retract recordOp => rfl

/-! ## The handshake -/

theorem handshakeOk_iff (r : Readout) (x : Crossing) :
    handshakeOk r x = true ↔
      r.busy = (x.req || x.resp.isSome) ∧ (x.req = true → x.resp = .none) ∧ (x.presenting = true → x.req = true) := by
  simp only [handshakeOk, Bool.and_eq_true, Bool.or_eq_true, Bool.not_eq_true', decide_eq_true_eq, ← Bool.not_eq_true,
    ← imp_iff_not_or, not_and, Option.isSome_iff_ne_none, not_not]

/-- R63: only a request in `x_req` is presented. -/
theorem req_of_presents {x : Crossing} {xPresent : Bool} (h : x.presents xPresent = true) : x.req = true :=
  (Bool.and_eq_true_iff.mp h).1

/-- R63: the capture side moves the request from one slot to the other, or lets it wait. -/
theorem handshakeOk_crossingNext {r : Readout} {x : Crossing} (inp : CaptureInputs) (resp : SvcResp) (h : handshakeOk r x = true) :
    handshakeOk r (crossingNext inp resp x) = true := by
  obtain ⟨hbusy, hslots, -⟩ := (handshakeOk_iff r x).mp h
  by_cases hpresents : x.presents inp.xPresent = true
  · have hreq := req_of_presents hpresents
    cases hack : resp.ack with
    | true =>
      rw [crossingNext_of_ack hpresents hack, handshakeOk_iff]
      exact ⟨by rw [hbusy, hreq]; rfl, nofun, nofun⟩
    | false =>
      rw [crossingNext_of_no_ack hpresents hack, handshakeOk_iff]
      exact ⟨hbusy, hslots, fun _ => hreq⟩
  · rwa [crossingNext, if_neg hpresents]

/-- R63, R65: the readout side puts a request into an empty slot, and empties the other when it takes the response. -/
theorem handshakeOk_readoutNext {s : State} (inp : ReadoutInputs) (h : handshakeOk s.readout s.xing = true) :
    handshakeOk (readoutNext inp s).readout (readoutNext inp s).xing = true := by
  obtain ⟨hbusy, hslots, hpresenting⟩ := (handshakeOk_iff _ _).mp h
  by_cases hdelivers : s.xing.resp = .none ∨ inp.deliver = false
  · rw [readoutNext_of_no_delivery hdelivers, handshakeOk_iff]
    refine ⟨by simp only [hbusy]; exact Bool.or_right_comm .., fun hreq => ?_, fun hp => by simp only [hpresenting hp, Bool.true_or]⟩
    rcases Bool.or_eq_true_iff.mp hreq with hreq | haccepts
    · exact hslots hreq
    · obtain ⟨-, hfree⟩ := Bool.and_eq_true_iff.mp haccepts
      rw [hbusy, Bool.not_eq_true', Bool.or_eq_false_iff] at hfree
      exact Option.isNone_iff_eq_none.mp (Option.isSome_eq_false_iff.mp hfree.2)
  · obtain ⟨hsome, hdeliver⟩ := not_or.mp hdelivers
    obtain ⟨resp, hresp⟩ := Option.ne_none_iff_exists'.mp hsome
    have hreq : s.xing.req = false := Bool.eq_false_iff.mpr fun hreq => hsome (hslots hreq)
    have hbusy : s.readout.busy = true := by rw [hbusy, hresp, Option.isSome_some, Bool.or_true]
    rw [readoutNext_of_deliver (Bool.not_eq_false _ ▸ hdeliver) hresp, readoutAccepts_of_busy hbusy, hreq, handshakeOk_iff]
    exact ⟨rfl, nofun, fun hp => absurd (hpresenting hp) (ne_true_of_eq_false hreq)⟩

/-- U8: with no request in flight the port is free, and emptying the slots leaves it so. -/
theorem handshakeOk_of_not_inFlight {s : State} (hflight : s.inFlight = false) : handshakeOk s.readout Crossing.reset = true := by
  obtain ⟨hbusy, -⟩ := Bool.or_eq_false_iff.mp hflight
  exact (handshakeOk_iff _ _).mpr ⟨hbusy, nofun, nofun⟩

/-! ## The ticks and the step -/

section
variable {s : State}

/-- The invariant does not look at the ports and the schedule. -/
theorem inv_fetch (h : Inv s) : Inv (fetch s).2 := by
  rw [fetch_eq]
  exact ⟨h.nonempty, h.chain, h.master, h.ring, h.level, h.response, h.handshake⟩

theorem inv_tickNext (op : MasterOp) (inp : CaptureInputs) (h : Inv s) : Inv (tickNext op inp s) where
  nonempty := by
    rw [tickNext_nodes, ← List.length_pos_iff, chainNext_length, List.length_pos_iff]
    exact h.nonempty
  chain := chainOk_chainNext _ h.chain
  master := masterOk_masterNext _ _ _ h.master
  ring := ringOk_runRing _ _ h.ring
  level := rfl
  response := responseOk_svcNext _ _ _
  handshake := handshakeOk_crossingNext _ _ h.handshake

/-- R196: the reset of the capture side, with a handshake that stands after it. -/
theorem inv_resetCapture (h : Inv s) (hhandshake : handshakeOk s.readout Crossing.reset = true) : Inv (resetCapture s) where
  nonempty := mt List.map_eq_nil_iff.mp h.nonempty
  chain := by
    rw [resetCapture_nodes_eq_replicate]
    exact chainOk_replicate_reset _
  master := masterOk_reset _
  ring := (ringOk_zero_pointers _).trans ((ringOk_iff _).mp h.ring).1
  level := (occ_zero_pointers _ _).symm
  response := responseOk_reset
  handshake := hhandshake

/-- R197: a reset of the readout side looks at nothing of the handshake before it. -/
theorem inv_resetReadout (h : Inv s) : Inv (resetReadout s) :=
  { h with handshake := handshakeOk_reset }

theorem inv_readoutNext (inp : ReadoutInputs) (h : Inv s) : Inv (readoutNext inp s) where
  nonempty := by rw [readoutNext_nodes]; exact h.nonempty
  chain := by rw [readoutNext_nodes]; exact h.chain
  master := by rw [readoutNext_params, readoutNext_master]; exact h.master
  ring := by rw [readoutNext_ring]; exact h.ring
  level := by rw [readoutNext_fifo, readoutNext_ring]; exact h.level
  response := by rw [readoutNext_svcResp]; exact h.response
  handshake := handshakeOk_readoutNext inp h.handshake

theorem inv_captureTick {t : State} {op : MasterOp} {inp : CaptureInputs} (h : Inv s) (htick : captureTick op inp s = .next t) :
    Inv t := by
  rcases captureTick_next htick with ⟨-, hflight, rfl⟩ | ⟨-, -, rfl⟩
  · exact inv_resetCapture h (handshakeOk_of_not_inFlight hflight)
  · exact inv_tickNext op inp h

theorem inv_readoutTick {t : State} {inp : ReadoutInputs} (h : Inv s) (htick : readoutTick inp s = .next t) : Inv t := by
  rcases readoutTick_next htick with ⟨-, -, rfl⟩ | ⟨-, rfl⟩
  · exact inv_resetReadout h
  · exact inv_readoutNext inp h

/-- The two domains' resets write different registers, and the slots alike. -/
theorem resetBoth_eq_resetCapture_resetReadout (s : State) : resetBoth s = resetCapture (resetReadout s) := rfl

/-- U8: a request in flight is dropped on both sides together. -/
theorem inv_resetBoth (h : Inv s) : Inv (resetBoth s) := by
  rw [resetBoth_eq_resetCapture_resetReadout]
  exact inv_resetCapture (inv_resetReadout h) handshakeOk_reset

end

/-- Settles O59: a step is a capture tick, a readout tick or the reset of both domains, and each keeps every part of the invariant. -/
theorem everyStepKeepsTheInvariant : Obligations.EveryStepKeepsTheInvariant := by
  intro s t hinv hstep
  rcases step_next hstep with ⟨op, inp, htick⟩ | ⟨inp, htick⟩ | rfl
  · exact inv_captureTick (inv_fetch hinv) htick
  · exact inv_readoutTick (inv_fetch hinv) htick
  · exact inv_resetBoth (inv_fetch hinv)

end Sys2Proof.Machine
end

section
/-! SUPPORT. The tick of a control word that the environment drives: the part all words share, said once, and what the chain does with each
word. -/

namespace Sys2Proof.Machine

/-- R22, R27, R91, log entry 14: a control word the environment drives, under defined ports. -/
theorem exec_ctlWord {s : State} {i : Instr} {w : CtlWord} (hports : PortsDefined s)
    (hi : captureInputsOf i s = some (.none, busInputs w s)) :
    ∃ t, exec i s = .next t ∧ Drives w s t ∧ t.master = { s.master with selected := chainSelected s.nodes } ∧
      AgreeOutsideChain t (tickNext .none s.inputs.cap s) ∧ KeepsSurroundings s t :=
  ⟨tickNext .none (busInputs w s) s, exec_of_portsDefined hports hi rfl rfl, drives_tickNext rfl, rfl,
    ⟨rfl, rfl, rfl, rfl, rfl, rfl, rfl, rfl, rfl, rfl, rfl, rfl⟩, keepsSurroundings_tickNext ..⟩

/-! ## Words with enable low -/

/-- R95, R98: the words that only deselect have enable low and are no chain op, and their operation drives them. -/
theorem deselectingWord_spec {i : Instr} {w : CtlWord} (h : deselectingWord i = some w) :
    w.enable = false ∧ (w.valid && decide (w.data.toNat ≤ 1)) = false ∧
      ∀ s, captureInputsOf i s = some (.none, busInputs w s) := by
  cases i <;> cases h <;> exact ⟨rfl, rfl, fun _ => rfl⟩

/-- Settles O7: each of the fifteen words passes the whole chain and deselects every node. -/
theorem idleAndReservedWordsDeselect : Obligations.IdleAndReservedWordsDeselect := by
  intro s i w hports hword
  obtain ⟨hlow, hnoOp, hinputs⟩ := deselectingWord_spec hword
  obtain ⟨hnodes, hleaves⟩ := chain_deselect hlow hnoOp s.nodes
  obtain ⟨t, hexec, ⟨hchain, hout, hreturn⟩, hrest⟩ := exec_ctlWord hports (hinputs s)
  exact ⟨t, hexec, hchain.trans hnodes, hout.trans hleaves, by rw [hreturn, hleaves, hlow], hrest⟩

/-- R96: the tokens after a shift are those before it, one node along. -/
theorem tokens_chainNext_shift (b : Bool) (ns : List Node) :
    (chainNext (wordShift b) ns).map (fun n => n.token) = (b :: ns.map (fun n => n.token)).dropLast := by
  induction ns generalizing b with
  | nil => rfl
  | cons n ns ih =>
    rw [wordShift, (chain_shift_cons b n ns).1, List.map_cons, List.map_cons, List.dropLast_cons_cons]
    exact congrArg (b :: ·) (ih n.token)

/-- R96: a shift deselects every node and keeps its other registers. -/
theorem registers_chainNext_shift (b : Bool) (ns : List Node) :
    (chainNext (wordShift b) ns).map (fun n => (n.selected, n.muxCtl, n.nibIdx)) =
      ns.map (fun n => (false, n.muxCtl, n.nibIdx)) := by
  induction ns generalizing b with
  | nil => rfl
  | cons n ns ih =>
    rw [wordShift, (chain_shift_cons b n ns).1, List.map_cons, List.map_cons]
    exact congrArg ((false, n.muxCtl, n.nibIdx) :: ·) (ih n.token)

/-- R96: the last node's token leaves the chain. -/
theorem chainOut_shift (b : Bool) (ns : List Node) :
    chainOut (wordShift b) ns = wordShift ((ns.map (fun n => n.token)).getLastD b) := by
  induction ns generalizing b with
  | nil => rfl
  | cons n ns ih =>
    rw [wordShift, (chain_shift_cons b n ns).2, List.map_cons, List.getLastD_cons]
    exact ih n.token

/-- Settles O8: the word is `wordShift b`, and the chain under it is a shift register of tokens. -/
theorem shiftMovesEveryToken : Obligations.ShiftMovesEveryToken := by
  intro s b hports
  obtain ⟨t, hexec, ⟨hchain, hout, -⟩, hrest⟩ := exec_ctlWord (i := .ctlShift b) (w := wordShift b) hports rfl
  refine ⟨t, hexec, ?tokens, ?registers, hout.trans (chainOut_shift b s.nodes), hrest⟩
  case tokens => rw [hchain, tokens_chainNext_shift]
  case registers => rw [hchain, registers_chainNext_shift]

/-- Settles O9: both broadcasts are the word of R71 with `select` at the value to set. -/
theorem broadcastSetsEveryToken : Obligations.BroadcastSetsEveryToken := by
  intro s i all hports hi
  have hinputs : captureInputsOf i s = some (.none, busInputs ⟨true, 1, false, all⟩ s) := by
    cases all <;> subst hi <;> rfl
  obtain ⟨t, hexec, hdrives, hrest⟩ := exec_ctlWord hports hinputs
  exact ⟨t, hexec, nodes_of_drives_broadcast hdrives, hdrives.2.1.trans (chain_broadcast all s.nodes).2, hrest⟩

/-! ## Words with enable high -/

/-- R100 to R103: a word with enable high, when some node holds the token: the first that does takes it, every other node is deselected, and
nothing leaves the chain. -/
theorem exec_ctlWord_of_claim {s : State} {i : Instr} {w : CtlWord} {before after : List Node} {n : Node} (hports : PortsDefined s)
    (hi : captureInputsOf i s = some (.none, busInputs w s)) (he : w.enable = true) (hsplit : s.nodes = before ++ n :: after)
    (hbefore : ∀ m ∈ before, m.token = false) (htoken : n.token = true) :
    ∃ t, exec i s = .next t ∧ t.nodes = before.map Node.deselected ++ nodeNext w n :: after.map Node.deselected ∧
      t.out.chainOut = CtlWord.zero ∧ t.out.tgt.enableReturn = false ∧
      t.master = { s.master with selected := chainSelected s.nodes } ∧
      AgreeOutsideChain t (tickNext .none s.inputs.cap s) ∧ KeepsSurroundings s t := by
  obtain ⟨hnodes, hmasked⟩ := chain_claim (after := after) he hbefore htoken
  rw [← hsplit] at hnodes hmasked
  obtain ⟨t, hexec, ⟨hchain, hout, hreturn⟩, hrest⟩ := exec_ctlWord hports hi
  exact ⟨t, hexec, hchain.trans hnodes, hout.trans hmasked, by rw [hreturn, hmasked]; rfl, hrest⟩

/-- Settles O10: both words raise enable, and the claiming node was UNSELECTED. -/
theorem enableSelectsTheFirstTokenHolder : Obligations.EnableSelectsTheFirstTokenHolder := by
  intro s i d b before after n hports hi hsplit hbefore htoken hsel
  obtain ⟨v, hinputs⟩ : ∃ v, captureInputsOf i s = some (.none, busInputs ⟨v, d, true, b⟩ s) := by
    rcases hi with rfl | rfl
    · exact ⟨false, rfl⟩
    · exact ⟨true, rfl⟩
  rw [← nodeNext_of_claim_unselected (w := ⟨v, d, true, b⟩) rfl htoken hsel]
  exact exec_ctlWord_of_claim hports hinputs rfl hsplit hbefore htoken

/-- Settles O11: `CTL_HOLD` carries no nibble, so the claiming node stays. -/
theorem holdKeepsTheSelectedNode : Obligations.HoldKeepsTheSelectedNode := by
  intro s d b before after n hports hsplit hbefore htoken hsel
  obtain ⟨t, hexec, hnodes, hout, -, hrest⟩ :=
    exec_ctlWord_of_claim (i := .ctlHold d b) (w := ⟨false, d, true, b⟩) hports rfl rfl hsplit hbefore htoken
  rw [nodeNext_of_claim_kept rfl htoken hsel (.inl rfl)] at hnodes
  exact ⟨t, hexec, hnodes, hout, hrest⟩

/-- R101: field `idx` becomes the nibble, bit by bit, and the other bits stay. -/
theorem getLsbD_setNibble (reg : Word) (idx d : BitVec 4) {j : Nat} (hj : j < 32) :
    (setNibble reg idx d).getLsbD j =
      if 4 * idx.toNat ≤ j ∧ j < 4 * idx.toNat + 4 then d.getLsbD (j - 4 * idx.toNat) else reg.getLsbD j := by
  have hmask : ∀ i, (0xF : Word).getLsbD i = decide (i < 4) := by
    intro i
    rw [show (0xF : Word) = (BitVec.allOnes 4).setWidth 32 from rfl, BitVec.getLsbD_setWidth, BitVec.getLsbD_allOnes]
    by_cases hi : i < 4
    · simp [hi]; omega
    · simp [hi]
  simp only [setNibble, BitVec.getLsbD_or, BitVec.getLsbD_and, BitVec.getLsbD_not, BitVec.getLsbD_shiftLeft, hmask,
    BitVec.getLsbD_setWidth, hj, decide_true, Bool.true_and]
  by_cases hbelow : j < 4 * idx.toNat
  · rw [if_neg (by omega)]
    simp [hbelow]
  · by_cases hin : j < 4 * idx.toNat + 4
    · rw [if_pos (by omega)]
      simp [hbelow, show j - 4 * idx.toNat < 4 by omega, show j - 4 * idx.toNat < 32 by omega]
    · rw [if_neg (by omega)]
      simp [show ¬ j - 4 * idx.toNat < 4 by omega, BitVec.getLsbD_of_ge d (j - 4 * idx.toNat) (by omega)]

/-- Settles O12: the claiming node is SELECTED, so it goes by its index alone. -/
theorem nibbleFillsTheMuxControl : Obligations.NibbleFillsTheMuxControl := by
  intro s d b before after n hports hsplit hbefore htoken hsel
  obtain ⟨t, hexec, hnodes, hout, -, hrest⟩ :=
    exec_ctlWord_of_claim (i := .ctlNibble d b) (w := ⟨true, d, true, b⟩) hports rfl rfl hsplit hbefore htoken
  obtain ⟨htoken', hsel'⟩ := nodeNext_of_claim (w := ⟨true, d, true, b⟩) rfl htoken
  refine ⟨t, nodeNext ⟨true, d, true, b⟩ n, hexec, hnodes, htoken', hsel', ?field, ?dropped, hout, hrest⟩
  case field =>
    intro hidx
    rw [nodeNext_of_claim_nibble rfl htoken hsel rfl hidx]
    exact ⟨rfl, fun j hj => getLsbD_setNibble n.muxCtl n.nibIdx d hj⟩
  case dropped => exact fun hidx => nodeNext_of_claim_kept rfl htoken hsel (.inr hidx)

/-- Settles O13: no node claims the word, so it passes them all. -/
theorem unclaimedEnablePassesThrough : Obligations.UnclaimedEnablePassesThrough := by
  intro s d b v i hports hi hnone
  have hinputs : captureInputsOf i s = some (.none, busInputs ⟨v, d, true, b⟩ s) := by
    cases v <;> subst hi <;> rfl
  obtain ⟨hnodes, hpasses⟩ := chain_pass (w := ⟨v, d, true, b⟩) rfl hnone
  obtain ⟨t, hexec, ⟨hchain, hout, hreturn⟩, hrest⟩ := exec_ctlWord hports hinputs
  exact ⟨t, hexec, hchain.trans hnodes, hout.trans hpasses, by rw [hreturn, hpasses], hrest⟩

end Sys2Proof.Machine
end

section
/-! SUPPORT. The merged response: an UNSELECTED node presents nothing, so at most one node's sample is in it. -/

namespace Sys2Proof.Machine

theorem merge_zero (a : Sample4) : a.merge Sample4.zero = a := by
  simp [Sample4.merge, Lanes.merge, Sample4.zero, Lanes.zero]

theorem zero_merge (a : Sample4) : Sample4.zero.merge a = a := by
  simp [Sample4.merge, Lanes.merge, Sample4.zero, Lanes.zero]

/-- R104: an UNSELECTED node presents nothing. -/
theorem nodeSample_of_unselected {src : Source} {n : Node} (h : n.selected = false) : nodeSample src n = Sample4.zero := by
  rw [nodeSample, if_neg (ne_true_of_eq_false h)]

/-- R104: a SELECTED node presents its source's sample. -/
theorem nodeSample_of_selected {src : Source} {n : Node} (h : n.selected = true) : nodeSample src n = src.at n.muxCtl := by
  rw [nodeSample, if_pos h]

/-- R105: the first node takes the first source, if one is listed, and the rest of the chain the rest of the sources. -/
theorem chainSample_cons (srcs : List Source) (n : Node) (ns : List Node) :
    chainSample srcs (n :: ns) = (nodeSample (srcs.getD 0 Source.none) n).merge (chainSample srcs.tail ns) := by
  cases srcs <;> rfl

theorem chainSample_of_unselected (srcs : List Source) {ns : List Node} (h : ∀ m ∈ ns, m.selected = false) :
    chainSample srcs ns = Sample4.zero := by
  induction ns generalizing srcs with
  | nil => cases srcs <;> rfl
  | cons n ns ih =>
    obtain ⟨hn, hns⟩ := List.forall_mem_cons.mp h
    rw [chainSample_cons, nodeSample_of_unselected hn, ih _ hns, merge_zero]

/-- R104, R105: with one node SELECTED the merged sample is that node's. -/
theorem chainSample_of_selected (srcs : List Source) {before after : List Node} {n : Node} (hn : n.selected = true)
    (hbefore : ∀ m ∈ before, m.selected = false) (hafter : ∀ m ∈ after, m.selected = false) :
    chainSample srcs (before ++ n :: after) = (srcs.getD before.length Source.none).at n.muxCtl := by
  induction before generalizing srcs with
  | nil =>
    rw [List.nil_append, chainSample_cons, nodeSample_of_selected hn, chainSample_of_unselected _ hafter, merge_zero]
    rfl
  | cons m before ih =>
    obtain ⟨hm, hms⟩ := List.forall_mem_cons.mp hbefore
    rw [List.cons_append, chainSample_cons, nodeSample_of_unselected hm, zero_merge, ih _ hms]
    cases srcs <;> rfl

theorem chainSelected_of_unselected {ns : List Node} (h : ∀ m ∈ ns, m.selected = false) : chainSelected ns = false :=
  List.any_eq_false.mpr fun m hm => ne_true_of_eq_false (h m hm)

theorem chainSelected_of_mem {ns : List Node} {n : Node} (hmem : n ∈ ns) (hn : n.selected = true) : chainSelected ns = true :=
  List.any_eq_true.mpr ⟨n, hmem, hn⟩

/-- Settles O14: the response of the tick is the chain's, from the nodes before it. -/
theorem responseIsTheSelectedNodesSample : Obligations.ResponseIsTheSelectedNodesSample := by
  intro op inp s t hreset htick
  obtain rfl := eq_tickNext_of_captureTick_next hreset htick
  refine ⟨?selected, ?unselected⟩
  case selected =>
    intro before after n hsplit hn hothers
    obtain ⟨hbefore, hafter⟩ := List.forall_mem_append.mp hothers
    refine ⟨chainSelected_of_mem (by rw [hsplit]; exact List.mem_append_cons_self) hn, ?_⟩
    exact (congrArg (chainSample inp.src) hsplit).trans (chainSample_of_selected inp.src hn hbefore hafter)
  case unselected => exact fun hnone => ⟨chainSelected_of_unselected hnone, chainSample_of_unselected inp.src hnone⟩

end Sys2Proof.Machine
end

section
/-! SUPPORT. The master ops of several ticks and of counted nibbles: `MOP_WRITE_NIBBLE`, and `MOP_SELECT k` followed word by word through the
shift register of tokens to the node it selects. -/

namespace Sys2Proof.Machine

/-! ## `MOP_WRITE_NIBBLE` -/

/-- R114: the count saturates at 255. -/
theorem countUp_toNat (c : BitVec 8) : (countUp c).toNat = min (c.toNat + 1) 255 := by
  unfold countUp
  split
  next hmax => omega
  next hroom => bv_omega

/-- Settles O17: the nibble goes out and is counted exactly while `m_enable` is 1. -/
theorem writeNibbleEmitsAndCounts : Obligations.WriteNibbleEmitsAndCounts := by
  intro s d hports hready
  obtain ⟨t, htick, hdrives, hmaster, hrest⟩ := masterTick_of_presented hports hready (op := .writeNibble d) (nofun)
  cases henable : s.master.enable with
  | true =>
    have hword : firstWord (.writeNibble d) s.master = wordNibble d := if_pos henable
    have hmaster : t.master =
        { s.master with selected := chainSelected s.nodes, completed := true, count := countUp s.master.count } :=
      hmaster.trans (if_pos henable)
    rw [hword] at hdrives
    exact ⟨t, htick, hdrives, fun _ => by rw [hmaster, countUp_toNat], nofun, by rw [hmaster], hrest⟩
  | false =>
    have hword : firstWord (.writeNibble d) s.master = wordIdle := by
      simp only [firstWord, quietWord, henable, Bool.false_eq_true, if_false]
    have hmaster : t.master = { s.master with selected := chainSelected s.nodes, completed := true } :=
      hmaster.trans (if_neg (ne_true_of_eq_false henable))
    rw [hword] at hdrives
    exact ⟨t, htick, hdrives, nofun, fun _ => ⟨nodes_of_drives_idle hdrives, by rw [hmaster]⟩, by rw [hmaster], hrest⟩

/-! ## The token on its way -/

/-- R108: node `p` holds the token if there is a node `p`, and no other node does; with `none`, no node does. -/
def TokenAt (p : Option Nat) (ns : List Node) : Prop := ∀ j n, ns[j]? = some n → n.token = decide (p = some j)

/-- R97: after `CTL_SELECT_NONE` no node holds the token. -/
theorem tokenAt_none_of_cleared (ns : List Node) : TokenAt .none (ns.map fun n => { n with token := false, selected := false }) := by
  intro j m hm
  rw [List.getElem?_map, Option.map_eq_some_iff] at hm
  obtain ⟨n, -, rfl⟩ := hm
  rfl

/-- R96: a node's token after a shift is the one before it in the shift register. -/
theorem getElem?_token_of_shift {b : Bool} {ns : List Node} {j : Nat} {m : Node} (hm : (chainNext (wordShift b) ns)[j]? = some m) :
    (b :: ns.map (fun n => n.token))[j]? = some m.token := by
  have htokens := congrArg (fun tokens => tokens[j]?) (tokens_chainNext_shift b ns)
  simp only [List.getElem?_map, hm, Option.map_some, List.getElem?_dropLast] at htokens
  split at htokens
  · exact htokens.symm
  · exact nomatch htokens

/-- R96: node 0 takes the token that the word carries. -/
theorem token_of_shift_zero {b : Bool} {ns : List Node} {m : Node} (hm : (chainNext (wordShift b) ns)[0]? = some m) : m.token = b :=
  (Option.some.inj (getElem?_token_of_shift hm)).symm

/-- R96: every other node takes the token of the node before it. -/
theorem token_of_shift_succ {b : Bool} {ns : List Node} {j : Nat} {m : Node} (hm : (chainNext (wordShift b) ns)[j + 1]? = some m) :
    ∃ n, ns[j]? = some n ∧ n.token = m.token := by
  have htoken := getElem?_token_of_shift hm
  rwa [List.getElem?_cons_succ, List.getElem?_map, Option.map_eq_some_iff] at htoken

/-- R112 step (2): the token enters node 0. -/
theorem tokenAt_shift_true {ns : List Node} (h : TokenAt .none ns) : TokenAt (some 0) (chainNext (wordShift true) ns) := by
  intro j m hm
  cases j with
  | zero => exact token_of_shift_zero hm
  | succ j =>
    obtain ⟨n, hn, htoken⟩ := token_of_shift_succ hm
    rw [← htoken, h j n hn]
    simp

/-- R112 step (3): the token moves one node along. -/
theorem tokenAt_shift_false {ns : List Node} {p : Nat} (h : TokenAt (some p) ns) :
    TokenAt (some (p + 1)) (chainNext (wordShift false) ns) := by
  intro j m hm
  cases j with
  | zero => exact token_of_shift_zero hm
  | succ j =>
    obtain ⟨n, hn, htoken⟩ := token_of_shift_succ hm
    rw [← htoken, h j n hn]
    simp

/-- R108: node `k`, if there is one, is SELECTED with its mux-control value and nibble index 0 and holds the token, and no other node is
SELECTED or holds the token. -/
def OnlySelected (k : Nat) (ns : List Node) : Prop :=
  ∀ j n, ns[j]? = some n → n.selected = decide (j = k) ∧ n.token = decide (j = k) ∧ (j = k → n.muxCtl = 0 ∧ n.nibIdx = 0)

/-- R103: `deselected` keeps a node's token at its place. -/
theorem token_of_getElem?_deselected {k j : Nat} {ns : List Node} {m : Node} (h : TokenAt (some k) ns)
    (hm : (ns.map Node.deselected)[j]? = some m) : m.selected = false ∧ m.token = decide (j = k) := by
  rw [List.getElem?_map, Option.map_eq_some_iff] at hm
  obtain ⟨n, hn, rfl⟩ := hm
  refine ⟨rfl, (h j n hn).trans ?_⟩
  simp [eq_comm]

/-- R92, R103: a claimed word deselects every node, but for the node that claims it. -/
theorem chainNext_of_claim_eq_set {w : CtlWord} (he : w.enable = true) {before after : List Node} {n : Node}
    (hbefore : ∀ m ∈ before, m.token = false) (hn : n.token = true) :
    chainNext w (before ++ n :: after) = ((before ++ n :: after).map Node.deselected).set before.length (nodeNext w n) := by
  rw [(chain_claim he hbefore hn).1]
  simp

/-- R100, R112 step (4): a word with enable high selects the one token holder of a chain with no node SELECTED. -/
theorem onlySelected_chainNext {w : CtlWord} {k : Nat} {ns : List Node} (he : w.enable = true) (htoken : TokenAt (some k) ns)
    (hnone : ∀ n ∈ ns, n.selected = false) : OnlySelected k (chainNext w ns) := by
  intro j m hm
  rcases chain_first_token ns with hnoToken | ⟨before, n, after, rfl, hbefore, hn⟩
  · rw [(chain_pass he hnoToken).1] at hm
    obtain ⟨hsel, htok⟩ := token_of_getElem?_deselected htoken hm
    obtain ⟨n, hn, rfl⟩ := List.mem_map.mp (List.mem_of_getElem? hm)
    have hjk : decide (j = k) = false := htok.symm.trans (hnoToken n hn)
    exact ⟨hsel.trans hjk.symm, htok, fun h => absurd h (of_decide_eq_false hjk)⟩
  · have hk : k = before.length := by
      have hdecide := htoken before.length n (by simp)
      simpa [hn] using hdecide.symm
    rw [chainNext_of_claim_eq_set he hbefore hn, nodeNext_of_claim_unselected he hn (hnone n (by simp)), ← hk,
      List.getElem?_set] at hm
    by_cases hjk : k = j
    · subst hjk
      rw [if_pos rfl] at hm
      split at hm
      · cases hm
        exact ⟨by simp, by simpa using hn, fun _ => ⟨rfl, rfl⟩⟩
      · exact nomatch hm
    · rw [if_neg hjk] at hm
      obtain ⟨hsel, htok⟩ := token_of_getElem?_deselected htoken hm
      exact ⟨by rw [hsel]; simp [eq_comm, hjk], htok, fun h => absurd h.symm hjk⟩

/-! ## The master on its way -/

section
variable {op : MasterOp} {m : Master} {k timeout : Nat} {sel : Bool}

/-- R112 step (2). -/
theorem masterWord_of_shiftOne (h : m.seq = .shiftOne k) : masterWord op m = wordShift true := by simp only [masterWord, h]

/-- R112 step (3). -/
theorem masterWord_of_shiftZeros_succ (h : m.seq = .shiftZeros (k + 1)) : masterWord op m = wordShift false := by
  simp only [masterWord, h]

/-- R112 step (4). -/
theorem masterWord_of_shiftZeros_zero (h : m.seq = .shiftZeros 0) : masterWord op m = wordHold := by simp only [masterWord, h]

theorem masterDriveNext_of_shiftOne (h : m.seq = .shiftOne k) :
    masterDriveNext timeout op sel m = { m with selected := sel, seq := .shiftZeros k } := by
  simp only [masterDriveNext, h]

theorem masterDriveNext_of_shiftZeros_succ (h : m.seq = .shiftZeros (k + 1)) :
    masterDriveNext timeout op sel m = { m with selected := sel, seq := .shiftZeros k } := by
  simp only [masterDriveNext, h]

/-- R27, R112: with the first `CTL_HOLD` enable is high, and the count and the watchdog start anew. -/
theorem masterDriveNext_of_shiftZeros_zero (h : m.seq = .shiftZeros 0) :
    masterDriveNext timeout op sel m = { m with selected := sel, enable := true, count := 0, wd := 0, seq := .wait } := by
  simp only [masterDriveNext, h]

end

section
variable {s : State} {inp : Inputs} {rest : List Event} {k : Nat}

/-- R112 step (1): the op scheduled while the master is ready clears every token and begins. -/
theorem step_of_mopSelect (hready : s.master.ready = true) (hscript : s.script = ⟨inp, .present ⟨.mop, 3 + 8 * k⟩⟩ :: rest)
    (hreset : inp.cap.reset = false) (hservice : inp.cap.svcReq.valid = false) :
    ∃ t, step s = .next t ∧ t.script = rest ∧ t.nodes = s.nodes.map (fun n => { n with token := false, selected := false }) ∧
      t.master.seq = .shiftOne k ∧ t.master.completed = false := by
  have hports : PortsDefined { s with inputs := inp, script := rest } :=
    ⟨hreset, fun hvalid => absurd hvalid (ne_true_of_eq_false hservice)⟩
  obtain ⟨⟨t, hexec, -, hnodes, hmaster, -, -, -, -, hrest, -⟩, -⟩ := selectAndEnableBegin _ k hports hready
  have hdecode : decode ⟨.mop, 3 + 8 * k⟩ = .ok (.mopSelect k) := decodeMop_select k
  exact ⟨t, by rw [step_of_present hscript, present_of_decode_ok hdecode, hexec], hrest, hnodes, by rw [hmaster], by rw [hmaster]⟩

variable (hreset : inp.cap.reset = false) (hbus : inp.cap.bus = .master) (hservice : inp.cap.svcReq.valid = false)
include hreset hbus hservice

/-- R109 to R117: a scheduled tick with the master on the bus and nothing presented to it. -/
theorem step_of_masterTick {w : CtlWord} {m : Master} (hscript : s.script = ⟨inp, .captureTick⟩ :: rest)
    (hseq : s.master.seq ≠ .timedOut) (hword : masterWord .none s.master = w)
    (hmaster : masterDriveNext s.params.masterTimeout .none (chainSelected s.nodes) s.master = m) :
    ∃ t, step s = .next t ∧ t.script = rest ∧ t.nodes = chainNext w s.nodes ∧ t.master = m := by
  subst hword hmaster
  let u : State := { s with inputs := inp, script := rest }
  have hop : tickOp .none inp.cap u = .none := opOf_of_seq hseq
  have hpush : grantsServicePush inp.cap u = false :=
    grantsServicePush_of_port u fun hvalid => absurd hvalid (ne_true_of_eq_false hservice)
  refine ⟨tickNext .none inp.cap u, (step_of_captureTick hscript).trans (captureTick_of_defined hreset hpush), rfl, ?nodes, ?master⟩
  case nodes =>
    rw [tickNext_nodes, tickCtl, hop, hbus]
    rfl
  case master =>
    rw [tickNext_master, hop, hbus]
    rfl

/-- R112 steps (3) and (4), by induction on the zeros left: with the token at node `p` and none SELECTED, `left` zeros carry it to node
`p + left`, and the `CTL_HOLD` behind them selects that node. -/
theorem run_of_shiftZeros {left p : Nat}
    (hscript : s.script = List.replicate (left + 1) ⟨inp, .captureTick⟩ ++ rest) (hseq : s.master.seq = .shiftZeros left)
    (hcompleted : s.master.completed = false) (htoken : TokenAt (some p) s.nodes) (hnone : ∀ n ∈ s.nodes, n.selected = false) :
    ∃ t, Host.Core.run Sys2Proof.core (left + 1) s = .next t ∧ t.script = rest ∧ t.nodes.length = s.nodes.length ∧
      OnlySelected (p + left) t.nodes ∧ t.master.enable = true ∧ t.master.seq = .wait ∧ t.master.completed = false := by
  induction left generalizing s p with
  | zero =>
    obtain ⟨t, hstep, hrest, hnodes, hmaster⟩ := step_of_masterTick hreset hbus hservice hscript (by rw [hseq]; exact nofun)
      (masterWord_of_shiftZeros_zero hseq) (masterDriveNext_of_shiftZeros_zero hseq)
    refine ⟨t, run_succ 0 hstep, hrest, ?length, ?selected, ?enable, ?seq, ?completed⟩
    case length => rw [hnodes, chainNext_length]
    case selected => rw [hnodes]; exact onlySelected_chainNext rfl htoken hnone
    case enable => rw [hmaster]
    case seq => rw [hmaster]
    case completed => rw [hmaster, hcompleted]
  | succ left ih =>
    obtain ⟨u, hstep, hrest, hnodes, hmaster⟩ := step_of_masterTick hreset hbus hservice hscript (by rw [hseq]; exact nofun)
      (masterWord_of_shiftZeros_succ hseq) (masterDriveNext_of_shiftZeros_succ hseq)
    obtain ⟨t, hrun, hscript', hlength, hselected, hmaster'⟩ := ih (s := u) (p := p + 1) hrest (by rw [hmaster])
      (by rw [hmaster, hcompleted]) (by rw [hnodes]; exact tokenAt_shift_false htoken)
      (by rw [hnodes]; exact chainNext_unselected_of_disabled rfl _)
    refine ⟨t, (run_succ (left + 1) hstep).trans hrun, hscript', ?length, ?selected, hmaster'⟩
    case length => rw [hlength, hnodes, chainNext_length]
    case selected => rwa [Nat.add_right_comm] at hselected

end

/-- Settles O20: the broadcast, the one, the `k` zeros and the hold, one step after the other. -/
theorem selectKSelectsExactlyNodeK : Obligations.SelectKSelectsExactlyNodeK := by
  intro s k inp rest hready hscript hreset hbus hservice
  obtain ⟨u, hstep1, hscript1, hnodes1, hseq1, hcompleted1⟩ := step_of_mopSelect hready hscript hreset hservice
  obtain ⟨v, hstep2, hscript2, hnodes2, hmaster2⟩ := step_of_masterTick hreset hbus hservice hscript1
    (by rw [hseq1]; exact nofun) (masterWord_of_shiftOne hseq1) (masterDriveNext_of_shiftOne hseq1)
  have htoken : TokenAt (some 0) v.nodes := by
    rw [hnodes2, hnodes1]
    exact tokenAt_shift_true (tokenAt_none_of_cleared s.nodes)
  have hnone : ∀ n ∈ v.nodes, n.selected = false := by
    rw [hnodes2]
    exact chainNext_unselected_of_disabled rfl _
  obtain ⟨t, hrun, hrest, hlength, hselected, hmaster⟩ := run_of_shiftZeros hreset hbus hservice hscript2 (by rw [hmaster2])
    (by rw [hmaster2, hcompleted1]) htoken hnone
  refine ⟨t, ?run, hrest, ?length, ?selected, hmaster⟩
  case run => rw [run_succ (k + 2) hstep1, run_succ (k + 1) hstep2, hrun]
  case length => rw [hlength, hnodes2, hnodes1, chainNext_length, List.length_map]
  case selected => rwa [Nat.zero_add] at hselected

end Sys2Proof.Machine
end

section
/-! SUPPORT. The byte matcher and the action table: the byte a condition looks at and its result, the bits of the action vector, and the
descriptor that decides whether an active tick halts. -/

namespace Sys2Proof.Machine

/-! ## The byte a condition looks at -/

/-- R18, R74: a byte of a lane by the shift that brings it down; only the low two bits of the byte select count. -/
theorem laneByte_byteSelect (w : Word) (sel : BitVec 3) :
    laneByte w (sel.extractLsb' 0 2) = (w >>> (8 * (sel.toNat % 4))).setWidth 8 := by
  have hbyte : (sel.extractLsb' 0 2).toNat = sel.toNat % 4 := by simp
  refine BitVec.eq_of_toNat_eq ?_
  rw [laneByte, hbyte, BitVec.extractLsb'_toNat, BitVec.toNat_setWidth, BitVec.toNat_ushiftRight]

section
variable {bc : ByteCondition}

/-- R120: `CSEL_LANE`. -/
theorem selectByte_of_lane (rsv : Byte) (l : Lanes) (h : bc.conditionSelect = 0) :
    selectByte rsv l bc = laneByte (if bc.byteSelect.getLsbD 2 then l.l1 else l.l0) (bc.byteSelect.extractLsb' 0 2) := by
  rw [selectByte, h]
  rfl

/-- R120: `CSEL_DATA_1`. -/
theorem selectByte_of_data1 (rsv : Byte) (l : Lanes) (h : bc.conditionSelect = 1) :
    selectByte rsv l bc = laneByte l.l1 (bc.byteSelect.extractLsb' 0 2) := by
  rw [selectByte, h]
  rfl

/-- R120 (U3), log entry 6: a reserved byte source. -/
theorem selectByte_of_reserved (rsv : Byte) (l : Lanes) (h : ¬ bc.conditionSelect.toNat < 2) : selectByte rsv l bc = rsv := by
  unfold selectByte
  split
  next h0 => omega
  next h1 => omega
  next => rfl

theorem conditionSelect_of_legal (h : bc.conditionSelect.toNat < 2) : bc.conditionSelect = 0 ∨ bc.conditionSelect = 1 := by
  bv_omega

/-- R120: with a source the spec names, the lane that the source and the byte select choose, and the byte of it. -/
theorem selectByte_of_legal (rsv : Byte) (l : Lanes) (h : bc.conditionSelect.toNat < 2) :
    selectByte rsv l bc =
      ((if bc.conditionSelect = 1 ∨ bc.byteSelect.getLsbD 2 = true then l.l1 else l.l0) >>>
        (8 * (bc.byteSelect.toNat % 4))).setWidth 8 := by
  rcases conditionSelect_of_legal h with hlane | hdata1
  · have hne : bc.conditionSelect ≠ 1 := by rw [hlane]; decide
    rw [selectByte_of_lane rsv l hlane, laneByte_byteSelect]
    simp only [hne, false_or]
  · rw [selectByte_of_data1 rsv l hdata1, laneByte_byteSelect, if_pos (.inl hdata1)]

end

/-! ## One condition -/

section
variable {rsv : Byte} {bs : Sample4} {bc : ByteCondition}

/-- R121 to R123: where the validity policy accepts the sample, the masked comparison alone decides. -/
theorem byteMatches_of_accepted (h : bs.valid = true ∨ bc.ignoreValid = true) :
    byteMatches rsv bs bc = true ↔ selectByte rsv bs.lane bc &&& bc.mask = bc.pattern &&& bc.mask := by
  have haccepted : (bc.ignoreValid || bs.valid) = true := by rw [Bool.or_eq_true]; exact h.symm
  rw [byteMatches, haccepted, Bool.true_and, decide_eq_true_iff]

/-- R122: an invalid sample fails a condition that does not ignore validity. -/
theorem byteMatches_of_rejected (hvalid : bs.valid = false) (hpolicy : bc.ignoreValid = false) : byteMatches rsv bs bc = false := by
  rw [byteMatches, hvalid, hpolicy, Bool.or_self, Bool.false_and]

/-- R120: with a source the spec names, the free byte of the reserved codes does not matter. -/
theorem byteMatches_of_legal (rsv rsv' : Byte) (bs : Sample4) (h : bc.conditionSelect.toNat < 2) :
    byteMatches rsv bs bc = byteMatches rsv' bs bc := by
  simp only [byteMatches, selectByte_of_legal _ bs.lane h]

end

/-- Settles O32: the byte goes by whether its source is one the spec names, and the result by the validity policy. -/
theorem byteMatchIsTheMaskedComparison : Obligations.ByteMatchIsTheMaskedComparison := by
  intro rsv bs bc lane byte
  have hbyte : selectByte rsv bs.lane bc = byte := by
    by_cases hlegal : bc.conditionSelect.toNat < 2
    · exact (selectByte_of_legal rsv bs.lane hlegal).trans (if_pos hlegal).symm
    · exact (selectByte_of_reserved rsv bs.lane hlegal).trans (if_neg hlegal).symm
  exact ⟨fun haccepted => hbyte ▸ byteMatches_of_accepted haccepted, byteMatches_of_rejected⟩

/-! ## The action vector -/

/-- R76: the bits of four one-bit words in a row, the last one in bit 0. -/
theorem getLsbD_ofBool_append (c3 c2 c1 c0 : Bool) (j : Fin 4) :
    BitVec.getLsbD (w := 4) (BitVec.ofBool c3 ++ BitVec.ofBool c2 ++ BitVec.ofBool c1 ++ BitVec.ofBool c0) j =
      ![c0, c1, c2, c3] j := by
  revert c3 c2 c1 c0 j
  decide

/-- R76, R126: bit `j` of the action vector is the result of condition `j`. -/
theorem getLsbD_actionVector (free : Nat) (cond : Vector ByteCondition 4) (bs : Sample4) {j : Nat} (hj : j < 4) :
    (actionVector free cond bs).getLsbD j = conditionResult free cond bs ⟨j, hj⟩ := by
  refine (getLsbD_ofBool_append _ _ _ _ ⟨j, hj⟩).trans ?_
  interval_cases j <;> rfl

section
variable {bc : ByteCondition} {i j : Nat}

/-- R125: the condition put into a slot is the one whose result the slot has; with a source the spec names, whatever the free byte. -/
theorem conditionResult_set_self (free : Nat) (cond : Vector ByteCondition 4) (bs : Sample4) (hi : i < 4)
    (hlegal : bc.conditionSelect.toNat < 2) :
    conditionResult free (cond.set i bc hi) bs ⟨i, hi⟩ = byteMatches 0 bs bc := by
  simp only [conditionResult, Fin.getElem_fin, Vector.getElem_set_self]
  exact byteMatches_of_legal _ 0 bs hlegal

/-- R125: the conditions share nothing but the sample. -/
theorem conditionResult_set_ne (free : Nat) (cond : Vector ByteCondition 4) (bs : Sample4) (hi : i < 4) (hj : j < 4) (hne : j ≠ i) :
    conditionResult free (cond.set i bc hi) bs ⟨j, hj⟩ = conditionResult free cond bs ⟨j, hj⟩ := by
  simp only [conditionResult, Fin.getElem_fin, Vector.getElem_set_ne hi hj hne.symm]

end

section
variable {s : State} {slot : BitVec 2} {bc : ByteCondition}

/-- R125, R126: with a condition at the port, the action vector is that of the configuration with the condition in its slot. -/
theorem tickVector_conditionInputs :
    tickVector (conditionInputs slot bc s) s =
      actionVector s.free (s.inputs.cap.tcfg.cond.set slot.toNat bc slot.isLt) (tickBounded s.inputs.cap s) := rfl

/-- R123, R126: the bit of the presented condition. -/
theorem getLsbD_tickVector_conditionInputs_self (hlegal : bc.conditionSelect.toNat < 2) :
    (tickVector (conditionInputs slot bc s) s).getLsbD slot.toNat = byteMatches 0 (tickBounded s.inputs.cap s) bc := by
  rw [tickVector_conditionInputs, getLsbD_actionVector _ _ _ slot.isLt, conditionResult_set_self _ _ _ slot.isLt hlegal]

/-- R125, R126: the other three bits are those of the configuration. -/
theorem getLsbD_tickVector_conditionInputs_ne {j : Nat} (hj : j < 4) (hne : j ≠ slot.toNat) :
    (tickVector (conditionInputs slot bc s) s).getLsbD j = (tickVector s.inputs.cap s).getLsbD j := by
  rw [tickVector_conditionInputs, tickVector, getLsbD_actionVector _ _ _ hj, getLsbD_actionVector _ _ _ hj,
    conditionResult_set_ne _ _ _ slot.isLt hj hne]

end

/-! ## The descriptor of an active tick -/

theorem triggerActive_iff (t : TriggerState) (c : TriggerConfig) :
    triggerActive t c = true ↔ t.running = true ∧ c.enable = true ∧ c.clear = false ∧ c.stop = false := by
  simp only [triggerActive, Bool.and_eq_true, Bool.not_eq_true']

/-- R135, R139: an active tick goes on running exactly if its descriptor does not halt. -/
theorem tickTrigger_running_of_active {inp : CaptureInputs} {s : State} (hactive : triggerActive s.trig inp.tcfg = true) :
    (tickTrigger inp s).running = !(tickDescriptor inp s).haltCapture := by
  obtain ⟨hrunning, henable, hclear, hstop⟩ := (triggerActive_iff _ _).mp hactive
  rw [tickTrigger, triggerNext_running_of_enabled henable hclear hstop, tickFired_halt_of_enabled henable hclear hstop, hrunning,
    Bool.true_and, Bool.or_true, Bool.and_true]

/-- R85, R120, R123: the match of a condition and the two byte sources the spec names put a condition at the port. -/
theorem captureInputsOf_condition {s : State} {i : Instr} {slot : BitVec 2} {bc : ByteCondition}
    (hi : i = .byteMatch slot bc ∨
      ∃ code : BitVec 2, bc = conditionWithSelect slot code s ∧ (i = .cselLane slot ∧ code = 0 ∨ i = .cselData1 slot ∧ code = 1)) :
    captureInputsOf i s = some (.none, conditionInputs slot bc s) := by
  rcases hi with rfl | ⟨code, rfl, ⟨rfl, rfl⟩ | ⟨rfl, rfl⟩⟩ <;> rfl

/-- Settles O33: each operation is the active tick of its inputs, and what it presents goes into the lookup of that tick's descriptor. -/
theorem conditionsAndActionSetDecideTheDescriptor : Obligations.ConditionsAndActionSetDecideTheDescriptor := by
  intro s hports hactive
  refine ⟨?condition, ?actionSet⟩
  case condition =>
    intro slot bc i hlegal hi
    exact ⟨tickNext .none (conditionInputs slot bc s) s, tickVector (conditionInputs slot bc s) s,
      exec_of_portsDefined hports (captureInputsOf_condition hi) rfl rfl, getLsbD_tickVector_conditionInputs_self hlegal,
      fun _ => getLsbD_tickVector_conditionInputs_ne, tickTrigger_running_of_active (inp := conditionInputs slot bc s) hactive,
      sameSampleSide_of_tcfg .., keepsSurroundings_tickNext ..⟩
  case actionSet =>
    intro entries
    exact ⟨tickNext .none (actionSetInputs entries s) s, exec_of_portsDefined hports rfl rfl rfl,
      tickTrigger_running_of_active (inp := actionSetInputs entries s) hactive, sameSampleSide_of_tcfg ..,
      keepsSurroundings_tickNext ..⟩

end Sys2Proof.Machine
end

section
/-! SUPPORT. One tick of the timer, case by case: the counter goes by the division rate alone, and the two captures go by whether the tick
clears, begins a session or fires `record_time`. -/

namespace Sys2Proof.Machine

section
variable {c : TriggerConfig} {newSession fireTime : Bool} {t : Timer}

/-! ## The counter -/

/-- R146: `clear` zeroes the timer and its prescaler. -/
theorem timerCount_of_clear (hclear : c.clear = true) : timerCount c t = { t with timer := 0, divCnt := 0 } := by
  rw [timerCount, if_pos hclear]

/-- R145: the prescaler has reached the division rate. -/
theorem timerCount_of_due (hclear : c.clear = false) (hdue : c.timerDiv.toNat ≤ t.divCnt.toNat) :
    timerCount c t = { t with timer := t.timer + 1, divCnt := 0 } := by
  rw [timerCount, if_neg (ne_true_of_eq_false hclear), if_pos (by rwa [timerDue, decide_eq_true_eq])]

/-- R145: the prescaler is still on its way. -/
theorem timerCount_of_not_due (hclear : c.clear = false) (hdue : ¬ c.timerDiv.toNat ≤ t.divCnt.toNat) :
    timerCount c t = { t with divCnt := t.divCnt + 1 } := by
  rw [timerCount, if_neg (ne_true_of_eq_false hclear), if_neg (by rwa [timerDue, decide_eq_true_eq])]

/-- R145: a tick without `clear` moves the timer or its prescaler, by the division rate. -/
theorem timerCount_counter_of_not_clear (hclear : c.clear = false) :
    ((timerCount c t).timer, (timerCount c t).divCnt) =
      if c.timerDiv.toNat ≤ t.divCnt.toNat then (t.timer + 1, 0) else (t.timer, t.divCnt + 1) := by
  by_cases hdue : c.timerDiv.toNat ≤ t.divCnt.toNat
  · rw [timerCount_of_due hclear hdue, if_pos hdue]
  · rw [timerCount_of_not_due hclear hdue, if_neg hdue]

/-- R145: the counter does not look at the captures, so it moves as if the tick had none. -/
theorem timerNext_counter :
    (timerNext c newSession fireTime t).timer = (timerCount c t).timer ∧
      (timerNext c newSession fireTime t).divCnt = (timerCount c t).divCnt := by
  unfold timerNext
  split
  · exact timerCount_congr c rfl rfl
  · split <;> exact timerCount_congr c rfl rfl

/-! ## The captures -/

/-- R147: with `record_time` not fired the captured values stay, and the valid tags stay unless the tick clears or begins a session. -/
theorem timerNext_recordedValue_of_unfired :
    (timerNext c newSession false t).recordedValue = ⟨t.recordedValue.value, !(c.clear || newSession) && t.recordedValue.valid⟩ := by
  rw [timerNext, timerCount_recordedValue]
  cases c.clear || newSession <;> rfl

/-- R147: the captured delta goes as the captured value does. -/
theorem timerNext_recordedDelta_of_unfired :
    (timerNext c newSession false t).recordedDelta = ⟨t.recordedDelta.value, !(c.clear || newSession) && t.recordedDelta.valid⟩ := by
  rw [timerNext, timerCount_recordedDelta]
  cases c.clear || newSession <;> rfl

/-- R148: in a tick within a session the captures go by `record_time` alone. -/
theorem timerNext_within_session (hclear : c.clear = false) :
    timerNext c false fireTime t = timerCount c (if fireTime = true then timerRecord t else t) := by
  rw [timerNext, hclear]
  rfl

end

/-- R145: of the configuration beside `clear`, only the counter takes notice. -/
theorem timerNext_congr {c c' : TriggerConfig} (hclear : c'.clear = c.clear) (newSession fireTime : Bool) (t : Timer) :
    timerNext c' newSession fireTime t =
      { timerNext c newSession fireTime t with
        timer := (timerNext c' newSession fireTime t).timer, divCnt := (timerNext c' newSession fireTime t).divCnt } := by
  rw [Timer.mk.injEq]
  refine ⟨rfl, rfl, ?value, ?delta⟩
  case value => simp only [timerNext, timerCount_recordedValue, hclear]
  case delta => simp only [timerNext, timerCount_recordedDelta, hclear]

/-! ## The division rate -/

/-- R145: the counter of a tick, whatever is captured in it. -/
theorem tickNext_counter (op : MasterOp) (inp : CaptureInputs) (s : State) :
    (tickNext op inp s).timer.timer = (timerCount inp.tcfg s.timer).timer ∧
      (tickNext op inp s).timer.divCnt = (timerCount inp.tcfg s.timer).divCnt :=
  timerNext_counter

/-- The division rate at the port: nothing but the counter looks at it. -/
theorem tickNext_timerDivInputs (op : MasterOp) (d : Byte) (s : State) :
    tickNext op (timerDivInputs d s) s =
      { tickNext op s.inputs.cap s with timer := (tickNext op (timerDivInputs d s) s).timer } := rfl

/-- Settles O51: the timer of the tick moves as `timerCount` does under the given rate. -/
theorem timerAdvancesAtTheDivisionRate : Obligations.TimerAdvancesAtTheDivisionRate := by
  intro s d hports
  obtain ⟨htimer, hdivCnt⟩ := tickNext_counter .none (timerDivInputs d s) s
  refine ⟨tickNext .none (timerDivInputs d s) s, exec_of_portsDefined hports rfl rfl rfl, ?clear, ?due, ?notDue, ?frame⟩
  case clear =>
    intro hclear
    rw [htimer, hdivCnt, timerCount_of_clear (c := (timerDivInputs d s).tcfg) hclear]
    exact ⟨rfl, rfl⟩
  case due =>
    intro hclear hdue
    rw [htimer, hdivCnt, timerCount_of_due (c := (timerDivInputs d s).tcfg) hclear hdue]
    exact ⟨rfl, BitVec.toNat_add s.timer.timer 1⟩
  case notDue =>
    intro hclear hlt
    have hfits : s.timer.divCnt.toNat + 1 < 2 ^ 8 := by have := d.isLt; omega
    rw [htimer, hdivCnt, timerCount_of_not_due (c := (timerDivInputs d s).tcfg) hclear (Nat.not_le_of_lt hlt)]
    exact ⟨(BitVec.toNat_add s.timer.divCnt 1).trans (Nat.mod_eq_of_lt hfits), rfl⟩
  case frame =>
    have hcaptures := timerNext_congr (c := s.inputs.cap.tcfg) (c' := (timerDivInputs d s).tcfg) rfl
      (tickNewSession s.inputs.cap s) (tickFired s.inputs.cap s).time s.timer
    exact (tickNext_timerDivInputs .none d s).trans (congrArg (fun t => { tickNext .none s.inputs.cap s with timer := t }) hcaptures)

end Sys2Proof.Machine
end

section
/-! SUPPORT. A tick in which nothing fires: outside an active tick, and with a descriptor without flags. The ring is left to the service
side, and no time is captured. -/

namespace Sys2Proof.Machine

/-- No action fires (R137, R138). -/
def Fired.none : Fired := ⟨false, false, false, false⟩

section
variable {op : MasterOp} {inp : CaptureInputs} {s : State}

/-- R137: outside an active tick no action fires, whatever the descriptor. -/
theorem fireActions_inactive (d : ActionDescriptor) (valid : Bool) : fireActions false d valid = Fired.none := rfl

/-- R143: a descriptor without flags fires no action. -/
theorem fireActions_of_no_flags (active valid : Bool) (select : BitVec 2) :
    fireActions active ⟨false, false, false, false, select⟩ valid = Fired.none := by
  cases active <;> rfl

theorem tickFired_of_inactive (hactive : triggerActive s.trig inp.tcfg = false) : tickFired inp s = Fired.none := by
  rw [tickFired, hactive, fireActions_inactive]

/-- R158: without data to record and without a push to take back there is no record request. -/
theorem tickRecord_invalid_of_unfired (hdata : (tickFired inp s).data = false) (hinval : (tickFired inp s).inval = false) :
    (tickRecord inp s).valid = false := by
  simp only [tickRecord, recordRequest, hdata, hinval, Bool.or_self, Bool.and_false]

/-- R158: a tick in which nothing fires leaves the ring to the service side. -/
theorem tickRing_of_unfired (hfired : tickFired inp s = Fired.none) (hservice : (serviceRequest s.xing inp).valid = false) :
    tickRing inp s = s.ring :=
  tickRing_idle (tickRecord_invalid_of_unfired (congrArg Fired.data hfired) (congrArg Fired.inval hfired)) hservice

/-- R147: the timer of a tick in which nothing fires. -/
theorem tickNext_timer_of_unfired (hfired : tickFired inp s = Fired.none) :
    (tickNext op inp s).timer = timerNext inp.tcfg (tickNewSession inp s) false s.timer := by
  rw [tickNext_timer, hfired]
  rfl

/-- R147: the tick begins a session. -/
theorem tickNewSession_of_start (hbefore : s.trig.running = false) (hafter : (tickTrigger inp s).running = true) :
    tickNewSession inp s = true := by
  rw [tickNewSession, hbefore, hafter]
  rfl

/-- R147: the tick begins no session. -/
theorem tickNewSession_of_no_start (h : s.trig.running = true ∨ (tickTrigger inp s).running = false) : tickNewSession inp s = false := by
  rcases h with h | h <;> simp [tickNewSession, h]

end

/-- R137: `clear` makes the tick inactive. -/
theorem triggerActive_of_clear {t : TriggerState} {c : TriggerConfig} (hclear : c.clear = true) : triggerActive t c = false := by
  simp [triggerActive, hclear]

/-- R137: a trigger that was not running is not active. -/
theorem triggerActive_of_not_running {t : TriggerState} {c : TriggerConfig} (hrunning : t.running = false) : triggerActive t c = false := by
  simp [triggerActive, hrunning]

/-- Settles O23: the tick is inactive, so nothing fires in it. -/
theorem clearZeroesTheTimer : Obligations.ClearZeroesTheTimer := by
  intro s i e st sp hports hi
  have hexec : exec i s = .next (tickNext .none (requestInputs e true st sp s) s) := by
    rcases hi with hi | ⟨rfl, rfl⟩
    · exact exec_requestWord hports (.inl hi)
    · exact exec_requestWord hports (.inr (.inl ⟨rfl, rfl, rfl⟩))
  have hfired : tickFired (requestInputs e true st sp s) s = Fired.none := tickFired_of_inactive (triggerActive_of_clear rfl)
  exact ⟨_, hexec, tickNext_timer_of_unfired hfired, tickRing_of_unfired hfired, sameSampleSide_of_tcfg ..,
    keepsSurroundings_tickNext ..⟩

/-- Settles O24: the trigger was not running, so nothing fires, and it runs after the tick, so the tick begins a session. -/
theorem startBeginsASession : Obligations.StartBeginsASession := by
  intro s hports hrunning
  have hfired : tickFired (requestInputs true false true false s) s = Fired.none :=
    tickFired_of_inactive (triggerActive_of_not_running hrunning)
  have htrig : tickTrigger (requestInputs true false true false s) s = ⟨true, false, true⟩ := by
    rw [tickTrigger, hfired]
    rfl
  have hsession : tickNewSession (requestInputs true false true false s) s = true :=
    tickNewSession_of_start hrunning (congrArg TriggerState.running htrig)
  refine ⟨tickNext .none (requestInputs true false true false s) s, exec_requestWord hports (.inl ⟨rfl, rfl⟩), htrig, ?value, ?delta,
    tickRing_of_unfired hfired, sameSampleSide_of_tcfg .., keepsSurroundings_tickNext ..⟩
  case value => rw [tickNext_timer_of_unfired hfired, hsession, timerNext_recordedValue_of_unfired]; rfl
  case delta => rw [tickNext_timer_of_unfired hfired, hsession, timerNext_recordedDelta_of_unfired]; rfl

end Sys2Proof.Machine
end

section
/-! SUPPORT. A tick sees of the byte matcher and the action table nothing but the descriptor looked up. So an operation that presents a
condition, an action set or descriptors is the tick of one descriptor, and that tick is said here: what fires, what becomes of the timer
and what of the ring. -/

namespace Sys2Proof.Machine

/-! ## The descriptor an operation resolves to -/

/-- The ports with another byte matcher and action table (R120 to R130). -/
def lookupInputs (cond : Vector ByteCondition 4) (set : Vector (BitVec 3) 16) (action : Vector ActionDescriptor 8) (s : State) :
    CaptureInputs :=
  { s.inputs.cap with tcfg := { s.inputs.cap.tcfg with cond := cond, actionSet := set, action := action } }

/-- The operation presents a byte matcher and an action table in which the tick's lookup resolves to `d` (R127). -/
def ResolvesTo (i : Instr) (d : ActionDescriptor) (s : State) : Prop :=
  ∃ cond set action, captureInputsOf i s = some (.none, lookupInputs cond set action s) ∧
    tickDescriptor (lookupInputs cond set action s) s = d

section
variable {i : Instr} {s : State}

theorem resolvesTo_of_descriptor {d : ActionDescriptor} (hi : captureInputsOf i s = some (.none, descriptorInputs d s)) :
    ResolvesTo i d s :=
  ⟨_, _, _, hi, tickDescriptor_descriptorInputs d s⟩

theorem resolvesTo_of_changedDescriptor {f : ActionDescriptor → ActionDescriptor}
    (hi : captureInputsOf i s = some (.none, changedDescriptorInputs f s)) : ResolvesTo i (f (tickDescriptor s.inputs.cap s)) s :=
  ⟨_, _, _, hi, tickDescriptor_changedDescriptorInputs f s⟩

theorem resolvesTo_of_condition {slot : BitVec 2} {bc : ByteCondition}
    (hi : captureInputsOf i s = some (.none, conditionInputs slot bc s)) :
    ResolvesTo i (tickDescriptor (conditionInputs slot bc s) s) s :=
  ⟨_, _, _, hi, rfl⟩

theorem resolvesTo_of_actionSet {entries : Vector (BitVec 3) 16} (hi : captureInputsOf i s = some (.none, actionSetInputs entries s)) :
    ResolvesTo i (tickDescriptor (actionSetInputs entries s) s) s :=
  ⟨_, _, _, hi, rfl⟩

end

/-- R137, R138: what fires in the tick of a descriptor. -/
theorem tickFired_descriptorInputs (d : ActionDescriptor) (s : State) :
    tickFired (descriptorInputs d s) s =
      fireActions (triggerActive s.trig s.inputs.cap.tcfg) d (tickBounded s.inputs.cap s).valid := by
  rw [tickFired, tickDescriptor_descriptorInputs]
  rfl

/-- R127: behind the lookup the tick looks at the descriptor only. -/
theorem tickNext_lookupInputs (op : MasterOp) (cond : Vector ByteCondition 4) (set : Vector (BitVec 3) 16)
    (action : Vector ActionDescriptor 8) (s : State) :
    tickNext op (lookupInputs cond set action s) s =
      tickNext op (descriptorInputs (tickDescriptor (lookupInputs cond set action s) s) s) s := by
  generalize hd : tickDescriptor (lookupInputs cond set action s) s = d
  have hfired : tickFired (lookupInputs cond set action s) s = tickFired (descriptorInputs d s) s := by
    rw [tickFired_descriptorInputs, tickFired, hd]
    rfl
  have htrig : tickTrigger (lookupInputs cond set action s) s = tickTrigger (descriptorInputs d s) s := by
    rw [tickTrigger, hfired]
    rfl
  have hgrant : tickGrant (lookupInputs cond set action s) s = tickGrant (descriptorInputs d s) s := by
    rw [tickGrant, tickRecord, hd, hfired, tickGrant, tickRecord, tickDescriptor_descriptorInputs]
    rfl
  have hop : tickRingOp (lookupInputs cond set action s) s = tickRingOp (descriptorInputs d s) s := by
    rw [tickRingOp, hgrant, tickRingOp]
  simp only [tickNext, tickNewSession, tickRing, tickSvcResp, hfired, htrig, hgrant, hop]
  rfl

/-- R127: an operation whose lookup resolves to `d` is the tick of `d`. -/
theorem exec_of_resolvesTo {i : Instr} {d : ActionDescriptor} {s : State} (hports : PortsDefined s) (hi : ResolvesTo i d s) :
    exec i s = .next (tickNext .none (descriptorInputs d s) s) := by
  obtain ⟨cond, set, action, hinputs, rfl⟩ := hi
  rw [exec_of_portsDefined hports hinputs rfl rfl, tickNext_lookupInputs]

/-! ## What an active tick of a descriptor does to the trigger and the timer -/

section
variable {op : MasterOp} {s : State} {d : ActionDescriptor}

/-- R135, R139: the trigger goes on running unless the descriptor halts it. -/
theorem tickTrigger_descriptorInputs (hactive : triggerActive s.trig s.inputs.cap.tcfg = true) :
    tickTrigger (descriptorInputs d s) s = ⟨true, false, !d.haltCapture⟩ := by
  obtain ⟨-, henable, hclear, -⟩ := (triggerActive_iff _ _).mp hactive
  have hrunning := tickTrigger_running_of_active (inp := descriptorInputs d s) hactive
  rw [tickDescriptor_descriptorInputs] at hrunning
  rw [← hrunning, ← henable, ← hclear]
  rfl

/-- R141, R148: the timer is captured if the descriptor says so, and the counter moves as always. -/
theorem tickNext_timer_descriptorInputs (hactive : triggerActive s.trig s.inputs.cap.tcfg = true) :
    (tickNext op (descriptorInputs d s) s).timer =
      timerCount s.inputs.cap.tcfg (if d.recordTime = true then timerRecord s.timer else s.timer) := by
  obtain ⟨hrunning, -, hclear, -⟩ := (triggerActive_iff _ _).mp hactive
  rw [tickNext_timer, tickNewSession_of_no_start (.inl hrunning), timerNext_within_session (c := (descriptorInputs d s).tcfg) hclear,
    tickFired_descriptorInputs, hactive]
  rfl

/-! ## What it does to the ring -/

/-- R138, R140: an active tick with a valid bounded sample records its data. -/
theorem tickFired_data_descriptorInputs (hactive : triggerActive s.trig s.inputs.cap.tcfg = true)
    (hvalid : (tickBounded s.inputs.cap s).valid = true) (hdata : d.recordData = true) (hinval : d.recordInvalidate = false) :
    (tickFired (descriptorInputs d s) s).data = true := by
  rw [tickFired_descriptorInputs]
  simp only [fireActions, hactive, hdata, hinval, hvalid, Bool.not_false, Bool.and_true]

/-- R140, R158: the data recorded under `push`. -/
theorem tickRingOp_of_descriptor_push (hactive : triggerActive s.trig s.inputs.cap.tcfg = true)
    (hvalid : (tickBounded s.inputs.cap s).valid = true) (hdata : d.recordData = true) (hinval : d.recordInvalidate = false)
    (hop : s.inputs.cap.rcfg.recordOp = 2) :
    tickRingOp (descriptorInputs d s) s =
      .push ⟨s.inputs.cap.rcfg.aluOp, (tickBounded s.inputs.cap s).lane.lane d.captureDataSelect, 1⟩ := by
  have hpush := tickRingOp_of_recordedPush (tickFired_data_descriptorInputs hactive hvalid hdata hinval) hop
  rwa [tickDescriptor_descriptorInputs] at hpush

/-- R140, R158: the data recorded under `access`. -/
theorem tickRingOp_of_descriptor_access (hactive : triggerActive s.trig s.inputs.cap.tcfg = true)
    (hvalid : (tickBounded s.inputs.cap s).valid = true) (hdata : d.recordData = true) (hinval : d.recordInvalidate = false)
    (hop : s.inputs.cap.rcfg.recordOp = 0) :
    tickRingOp (descriptorInputs d s) s =
      .access (tickOffset s.inputs.cap s)
        (some ⟨s.inputs.cap.rcfg.aluOp, (tickBounded s.inputs.cap s).lane.lane d.captureDataSelect, 1⟩) := by
  have haccess := tickRingOp_of_recordedAccess (tickFired_data_descriptorInputs hactive hvalid hdata hinval) hop
  rwa [tickDescriptor_descriptorInputs] at haccess

/-- R138, R142: an active tick takes back whatever stands beside `record_invalidate`. -/
theorem tickFired_inval_descriptorInputs (hactive : triggerActive s.trig s.inputs.cap.tcfg = true) (hinval : d.recordInvalidate = true) :
    (tickFired (descriptorInputs d s) s).inval = true := by
  rw [tickFired_descriptorInputs]
  simp only [fireActions, hactive, hinval, Bool.and_true]

end

section
variable {inp : CaptureInputs} {s : State} {args : AluArgs} {a : RingAddr}

/-- R158: a fired `record_invalidate` is a record request if the record op is one that records. -/
theorem tickRecord_valid_of_inval (hinval : (tickFired inp s).inval = true) (hop : inp.rcfg.recordOp = 2 ∨ inp.rcfg.recordOp = 0) :
    (tickRecord inp s).valid = true := by
  rcases hop with hop | hop <;> simp [tickRecord, recordRequest, hinval, hop]

/-- R160, R165: what a fired `record_invalidate` executes is the retract. -/
theorem tickRing_of_inval (hinval : (tickFired inp s).inval = true) (hop : inp.rcfg.recordOp = 2 ∨ inp.rcfg.recordOp = 0) :
    tickRing inp s = retractRing inp.rcfg.recordOp s.ring := by
  have hretract : tickRingOp inp s = .retract inp.rcfg.recordOp := by
    rw [tickRingOp, tickGrant_of_record (tickRecord_valid_of_inval hinval hop)]
    simp [grantedOp, tickRecord, recordRequest, hinval]
  rw [tickRing, hretract]
  rfl

/-- R142, R165: the ring after an active tick with `record_invalidate`. -/
theorem tickRing_of_descriptor_inval {d : ActionDescriptor} (hactive : triggerActive s.trig s.inputs.cap.tcfg = true)
    (hinval : d.recordInvalidate = true) (hop : s.inputs.cap.rcfg.recordOp = 2 ∨ s.inputs.cap.rcfg.recordOp = 0) :
    tickRing (descriptorInputs d s) s = retractRing s.inputs.cap.rcfg.recordOp s.ring :=
  tickRing_of_inval (tickFired_inval_descriptorInputs hactive hinval) hop

/-- R163: a push into a buffer with room, by one of the ops the spec defines, whatever the free result. -/
theorem tickRing_of_push_defined (hop : tickRingOp inp s = .push args) (hroom : s.ring.occ ≠ 2048) (halu : args.op.toNat ≤ 8) :
    tickRing inp s =
      ⟨Memory.write s.ring.mem (ptrAddr s.ring.wp) (alu 0 args (Memory.read s.ring.mem (ptrAddr s.ring.wp))),
        s.ring.wp + 1, s.ring.rp, true⟩ := by
  rw [tickRing_of_push_room hop hroom, alu_defined halu _ 0]

/-- R161: an access that combines a word by one of the ops the spec defines, whatever the free result. -/
theorem tickRing_of_access_defined (hop : tickRingOp inp s = .access a (some args)) (halu : args.op.toNat ≤ 8) :
    tickRing inp s = { s.ring with mem := Memory.write s.ring.mem a (alu 0 args (Memory.read s.ring.mem a)) } := by
  rw [tickRing_of_access hop, alu_defined halu _ 0]

/-- R163, R178: a push into a buffer with room reports no overflow. -/
theorem tickNext_overflow_of_push_room {op : MasterOp} (hop : tickRingOp inp s = .push args) (hroom : s.ring.occ ≠ 2048) :
    (tickNext op inp s).fifo.overflow = false := by
  rw [tickNext_fifo, hop]
  exact decide_eq_false hroom

/-- R178: an access reports no overflow. -/
theorem tickNext_overflow_of_access {op : MasterOp} {write : Option AluArgs} (hop : tickRingOp inp s = .access a write) :
    (tickNext op inp s).fifo.overflow = false := by
  rw [tickNext_fifo, hop]
  rfl

end

section
variable {op : BitVec 2} {r : Ring}

/-- R165: the last push is taken back. -/
theorem retractRing_of_live (h : op = 2 ∧ r.lastPushLive = true) :
    retractRing op r = { r with wp := r.wp - 1, lastPushLive := false } := by
  rw [retractRing, if_pos h]

/-- R165: there is nothing to take back, or the mode is not `push`. -/
theorem retractRing_of_not_live (h : ¬ (op = 2 ∧ r.lastPushLive = true)) : retractRing op r = r := by
  rw [retractRing, if_neg h]

end

end Sys2Proof.Machine
end

section
/-! SUPPORT. The action descriptors: each operation resolves to a descriptor, and what its flags do is said of the tick of that
descriptor. -/

namespace Sys2Proof.Machine

/-- Settles O25: the flags beside `halt_capture` act on the timer and the ring, which the halt does not touch. -/
theorem haltStopsTheTrigger : Obligations.HaltStopsTheTrigger := by
  intro s data time inval sel hports hactive v
  have htimer := tickNext_timer_descriptorInputs (op := .none) (d := ⟨true, data, time, inval, sel⟩) hactive
  refine ⟨tickNext .none (descriptorInputs ⟨true, data, time, inval, sel⟩ s) s, exec_of_portsDefined hports rfl rfl rfl,
    tickTrigger_descriptorInputs hactive, ?value, ?delta, ?recorded, ?retracted, sameSampleSide_of_tcfg .., keepsSurroundings_tickNext ..⟩
  case value =>
    rw [htimer, timerCount_recordedValue]
    cases time <;> rfl
  case delta =>
    rw [htimer, timerCount_recordedDelta]
    cases time <;> rfl
  case recorded =>
    rintro rfl rfl hvalid halu
    refine ⟨fun hpush hroom => ?push, fun haccess => ?access⟩
    case push =>
      have hop := tickRingOp_of_descriptor_push (d := ⟨true, true, time, false, sel⟩) hactive hvalid rfl rfl hpush
      rw [tickNext_ring, tickRing_of_push_defined hop hroom halu]
      exact ⟨rfl, rfl, Memory.read_write_self ..⟩
    case access =>
      have hop := tickRingOp_of_descriptor_access (d := ⟨true, true, time, false, sel⟩) hactive hvalid rfl rfl haccess
      rw [tickNext_ring, tickRing_of_access_defined hop halu]
      exact ⟨rfl, Memory.read_write_self ..⟩
  case retracted =>
    rintro rfl hpush hlive
    rw [tickNext_ring, tickRing_of_descriptor_inval hactive rfl (.inl hpush), retractRing_of_live ⟨hpush, hlive⟩]
    exact ⟨rfl, rfl⟩

/-- Settles O26: each operation resolves to a descriptor with `record_time`, and the timer of an active tick goes by that flag alone. -/
theorem recordTimeCapturesTheTimer : Obligations.RecordTimeCapturesTheTimer := by
  intro s i data inval sel hports hactive hi
  obtain ⟨d, hresolves, htime⟩ : ∃ d, ResolvesTo i d s ∧ d.recordTime = true := by
    rcases hi with rfl | rfl | rfl | rfl
    · exact ⟨_, resolvesTo_of_descriptor rfl, rfl⟩
    · exact ⟨_, resolvesTo_of_descriptor rfl, rfl⟩
    · exact ⟨_, resolvesTo_of_descriptor rfl, rfl⟩
    · exact ⟨_, resolvesTo_of_changedDescriptor rfl, rfl⟩
  have htimer : (tickNext .none (descriptorInputs d s) s).timer = timerCount s.inputs.cap.tcfg (timerRecord s.timer) :=
    (tickNext_timer_descriptorInputs hactive).trans (by rw [if_pos htime])
  obtain ⟨-, -, hclear, -⟩ := (triggerActive_iff _ _).mp hactive
  refine ⟨tickNext .none (descriptorInputs d s) s, exec_of_resolvesTo hports hresolves, ?value, ?delta, ?counter,
    sameSampleSide_of_tcfg .., keepsSurroundings_tickNext ..⟩
  case value => rw [htimer, timerCount_recordedValue, timerRecord_recordedValue]
  case delta => rw [htimer, timerCount_recordedDelta, timerRecord_recordedDelta]
  case counter => rw [htimer]; exact timerCount_counter_of_not_clear hclear

/-- R140, R143: `record_data` with `halt_capture` or without, as one descriptor. -/
theorem captureInputsOf_recordData {s : State} {i : Instr} {time : Bool} {sel : BitVec 2}
    (hi : i = .actRecordData time false sel ∨ i = .actHalt true time false sel) :
    ∃ halt, captureInputsOf i s = some (.none, descriptorInputs ⟨halt, true, time, false, sel⟩ s) ∧
      (!halt) = decide (i = .actRecordData time false sel) := by
  rcases hi with rfl | rfl
  · exact ⟨false, rfl, (decide_eq_true rfl).symm⟩
  · exact ⟨true, rfl, (decide_eq_false nofun).symm⟩

/-- Settles O27: the tick pushes, and the ring and its flags go by whether there is room. -/
theorem recordDataPushesTheLane : Obligations.RecordDataPushesTheLane := by
  intro s i time sel hports hactive hvalid hrecordOp halu hi
  obtain ⟨halt, hinputs, hhalt⟩ := captureInputsOf_recordData (s := s) hi
  have hop := tickRingOp_of_descriptor_push (d := ⟨halt, true, time, false, sel⟩) hactive hvalid rfl rfl hrecordOp
  have hrecord := tickRecord_of_data (tickFired_data_descriptorInputs (d := ⟨halt, true, time, false, sel⟩) hactive hvalid rfl rfl)
    (.inl hrecordOp)
  refine ⟨tickNext .none (descriptorInputs ⟨halt, true, time, false, sel⟩ s) s, exec_of_portsDefined hports hinputs rfl rfl,
    ?full, ?room, tickSvcResp_of_record (congrArg RecordRequest.valid hrecord), ?running, sameSampleSide_of_tcfg ..,
    keepsSurroundings_tickNext ..⟩
  case full => exact fun hfull => ⟨tickRing_of_push_full hop hfull, tickNext_overflow_of_push_full hop hfull⟩
  case room =>
    intro hroom
    rw [tickNext_ring, tickRing_of_push_defined hop hroom halu]
    exact ⟨rfl, rfl, rfl, tickNext_overflow_of_push_room hop hroom, Memory.read_write_self .., keepsStoreBut_write _ _ _⟩
  case running => rw [← hhalt, tickNext_trig, tickTrigger_descriptorInputs hactive]

/-- Settles O28: the tick accesses the word at OffsetBound's address, and an access moves no pointer. -/
theorem recordDataAccumulatesAtTheOffset : Obligations.RecordDataAccumulatesAtTheOffset := by
  intro s i time sel hports hactive hvalid hrecordOp halu hi
  obtain ⟨halt, hinputs, -⟩ := captureInputsOf_recordData (s := s) hi
  have hop := tickRingOp_of_descriptor_access (d := ⟨halt, true, time, false, sel⟩) hactive hvalid rfl rfl hrecordOp
  refine ⟨tickNext .none (descriptorInputs ⟨halt, true, time, false, sel⟩ s) s, exec_of_portsDefined hports hinputs rfl rfl, ?_⟩
  rw [tickNext_ring, tickRing_of_access_defined hop halu]
  exact ⟨rfl, rfl, rfl, tickNext_overflow_of_access hop, Memory.read_write_self .., keepsStoreBut_write _ _ _,
    sameSampleSide_of_tcfg .., keepsSurroundings_tickNext ..⟩

/-- Settles O29: each operation resolves to a descriptor with `record_invalidate`, and the tick of that descriptor is a retract. -/
theorem recordInvalidateRetracts : Obligations.RecordInvalidateRetracts := by
  intro s i data time sel hports hactive hi hrecordOp
  obtain ⟨d, hresolves, hinval⟩ : ∃ d, ResolvesTo i d s ∧ d.recordInvalidate = true := by
    rcases hi with rfl | rfl | rfl | rfl | rfl
    · exact ⟨_, resolvesTo_of_descriptor rfl, rfl⟩
    · exact ⟨_, resolvesTo_of_descriptor rfl, rfl⟩
    · exact ⟨_, resolvesTo_of_descriptor rfl, rfl⟩
    · exact ⟨_, resolvesTo_of_descriptor rfl, rfl⟩
    · exact ⟨_, resolvesTo_of_changedDescriptor rfl, rfl⟩
  have hring : (tickNext .none (descriptorInputs d s) s).ring = retractRing s.inputs.cap.rcfg.recordOp s.ring :=
    tickRing_of_descriptor_inval hactive hinval hrecordOp
  have hrecord := tickRecord_valid_of_inval (inp := descriptorInputs d s) (tickFired_inval_descriptorInputs hactive hinval) hrecordOp
  refine ⟨tickNext .none (descriptorInputs d s) s, exec_of_resolvesTo hports hresolves, ?store, ?rp, ?pointer,
    tickSvcResp_of_record hrecord, sameSampleSide_of_tcfg .., keepsSurroundings_tickNext ..⟩
  case store => rw [hring, retractRing_mem]
  case rp => rw [hring, retractRing_rp]
  case pointer =>
    rw [hring]
    split
    case isTrue hlive =>
      rw [retractRing_of_live hlive]
      exact ⟨rfl, rfl⟩
    case isFalse hlive => exact retractRing_of_not_live hlive

/-- R138, R140: a descriptor without `record_invalidate` makes no record request unless it has data to record and a valid sample. -/
theorem tickRecord_invalid_of_descriptor {s : State} {d : ActionDescriptor} (hinval : d.recordInvalidate = false)
    (hdata : d.recordData = false ∨ (tickBounded s.inputs.cap s).valid = false) :
    (tickRecord (descriptorInputs d s) s).valid = false := by
  apply tickRecord_invalid_of_unfired
  · rw [tickFired_descriptorInputs]
    rcases hdata with hdata | hvalid
    · simp only [fireActions, hdata, Bool.false_and, Bool.and_false]
    · simp only [fireActions, hvalid, Bool.and_false]
  · rw [tickFired_descriptorInputs, fireActions, hinval, Bool.and_false]

/-- Settles O30: in each case the tick makes no record request, by the record op or by the descriptor's flags. -/
theorem nothingIsRecordedWithoutASampleOrAMode : Obligations.NothingIsRecordedWithoutASampleOrAMode := by
  intro s i data time inval sel hports hi hservice
  obtain ⟨d, hresolves, hrecord⟩ : ∃ d, ResolvesTo i d s ∧ (tickRecord (descriptorInputs d s) s).valid = false := by
    rcases hi with ⟨hpush, haccess, hi⟩ | ⟨hvalid, rfl | rfl⟩ | rfl | rfl
    · obtain ⟨d, hresolves⟩ : ∃ d, ResolvesTo i d s := by
        rcases hi with rfl | rfl | rfl | rfl | rfl | rfl
        · exact ⟨_, resolvesTo_of_descriptor rfl⟩
        · exact ⟨_, resolvesTo_of_descriptor rfl⟩
        · exact ⟨_, resolvesTo_of_descriptor rfl⟩
        · exact ⟨_, resolvesTo_of_descriptor rfl⟩
        · exact ⟨_, resolvesTo_of_changedDescriptor rfl⟩
        · exact ⟨_, resolvesTo_of_changedDescriptor rfl⟩
      exact ⟨d, hresolves, tickRecord_invalid_of_recordOp hpush haccess⟩
    · exact ⟨_, resolvesTo_of_descriptor rfl, tickRecord_invalid_of_descriptor rfl (.inr hvalid)⟩
    · exact ⟨_, resolvesTo_of_descriptor rfl, tickRecord_invalid_of_descriptor rfl (.inr hvalid)⟩
    · exact ⟨_, resolvesTo_of_descriptor rfl, tickRecord_invalid_of_descriptor rfl (.inl rfl)⟩
    · exact ⟨_, resolvesTo_of_descriptor rfl, tickRecord_invalid_of_descriptor rfl (.inl rfl)⟩
  exact ⟨tickNext .none (descriptorInputs d s) s, exec_of_resolvesTo hports hresolves, tickRing_idle hrecord hservice,
    tickSvcResp_idle hrecord hservice, sameSampleSide_of_tcfg .., keepsSurroundings_tickNext ..⟩

/-- Settles O31: whichever descriptor is looked up, nothing fires, so the trigger, the timer and the ring are those of an unfired tick. -/
theorem nothingFiresWithoutAnActiveFlag : Obligations.NothingFiresWithoutAnActiveFlag := by
  intro s i d slot bc entries hports hi
  obtain ⟨e, hresolves, hfired⟩ : ∃ e, ResolvesTo i e s ∧ tickFired (descriptorInputs e s) s = Fired.none := by
    rcases hi with rfl | ⟨hactive, hi⟩
    · exact ⟨_, resolvesTo_of_descriptor rfl, by rw [tickFired_descriptorInputs, fireActions_of_no_flags]⟩
    · obtain ⟨e, hresolves⟩ : ∃ e, ResolvesTo i e s := by
        rcases hi with rfl | rfl | rfl | rfl | rfl | rfl | rfl | rfl | rfl | rfl
        · exact ⟨_, resolvesTo_of_descriptor rfl⟩
        · exact ⟨_, resolvesTo_of_descriptor rfl⟩
        · exact ⟨_, resolvesTo_of_descriptor rfl⟩
        · exact ⟨_, resolvesTo_of_descriptor rfl⟩
        · exact ⟨_, resolvesTo_of_changedDescriptor rfl⟩
        · exact ⟨_, resolvesTo_of_changedDescriptor rfl⟩
        · exact ⟨_, resolvesTo_of_condition rfl⟩
        · exact ⟨_, resolvesTo_of_condition rfl⟩
        · exact ⟨_, resolvesTo_of_condition rfl⟩
        · exact ⟨_, resolvesTo_of_actionSet rfl⟩
      exact ⟨e, hresolves, tickFired_of_inactive hactive⟩
  have htrig : tickTrigger (descriptorInputs e s) s = triggerNext s.inputs.cap.tcfg false s.trig := by
    rw [tickTrigger, hfired]
    rfl
  refine ⟨tickNext .none (descriptorInputs e s) s, exec_of_resolvesTo hports hresolves, htrig, ?_⟩
  rw [tickNext_timer_of_unfired hfired, timerNext_recordedValue_of_unfired, timerNext_recordedDelta_of_unfired]
  refine ⟨rfl, rfl, ?cleared, ?kept, tickRing_of_unfired hfired, sameSampleSide_of_tcfg .., keepsSurroundings_tickNext ..⟩
  case cleared =>
    intro h
    have hclears : ((descriptorInputs e s).tcfg.clear || tickNewSession (descriptorInputs e s) s) = true := by
      rcases h with hclear | ⟨hbefore, hafter⟩
      · exact Bool.or_eq_true_iff.mpr (.inl hclear)
      · rw [tickNewSession_of_start hbefore hafter, Bool.or_true]
    rw [hclears]
    exact ⟨rfl, rfl⟩
  case kept =>
    intro hclear hsession
    have hkeeps : ((descriptorInputs e s).tcfg.clear || tickNewSession (descriptorInputs e s) s) = false := by
      rw [tickNewSession_of_no_start hsession, Bool.or_false]
      exact hclear
    rw [hkeeps]
    exact ⟨rfl, rfl⟩

end Sys2Proof.Machine
end

section
/-! SUPPORT. The filter: what each mode admits, what an admitted and a dropped sample leave, and duplicate suppression under all-ones
masks. -/

namespace Sys2Proof.Machine

/-! ## The admission -/

/-- R152: a lane has changed under its mask exactly if the masked values differ. -/
theorem laneChanged_iff (mask prev lane : Word) : laneChanged mask prev lane = true ↔ lane &&& mask ≠ prev &&& mask := by
  have hdistrib : (lane ^^^ prev) &&& mask = (lane &&& mask) ^^^ (prev &&& mask) := by
    ext i hi
    simp only [BitVec.getElem_and, BitVec.getElem_xor, Bool.and_xor_distrib_right]
  rw [laneChanged, decide_eq_true_eq, hdistrib]
  exact not_congr BitVec.xor_eq_zero_iff

section
variable {c : FilterConfig} {f : FilterState} {raw : Sample4}

/-- R152: the match mode compares every lane with the configured value. -/
theorem filterAdmits_iff_of_match (hmode : c.acceptUnchanging = false) :
    filterAdmits c f raw = true ↔
      raw.valid = true ∧ raw.lane.l0 &&& c.mask.l0 = c.value.l0 &&& c.mask.l0 ∧ raw.lane.l1 &&& c.mask.l1 = c.value.l1 &&& c.mask.l1 ∧
        raw.lane.l2 &&& c.mask.l2 = c.value.l2 &&& c.mask.l2 ∧ raw.lane.l3 &&& c.mask.l3 = c.value.l3 &&& c.mask.l3 := by
  simp only [filterAdmits, hmode, Bool.false_eq_true, if_false, matchAll, laneMatches, Bool.and_eq_true, decide_eq_true_eq]

/-- R152: the duplicate-suppression mode compares every lane with the last admitted one, if there is one. -/
theorem filterAdmits_iff_of_change (hmode : c.acceptUnchanging = true) :
    filterAdmits c f raw = true ↔
      raw.valid = true ∧ (f.prevValid = false ∨ raw.lane.l0 &&& c.mask.l0 ≠ f.prev.l0 &&& c.mask.l0 ∨
        raw.lane.l1 &&& c.mask.l1 ≠ f.prev.l1 &&& c.mask.l1 ∨ raw.lane.l2 &&& c.mask.l2 ≠ f.prev.l2 &&& c.mask.l2 ∨
        raw.lane.l3 &&& c.mask.l3 ≠ f.prev.l3 &&& c.mask.l3) := by
  simp only [filterAdmits, hmode, if_true, changedAny, Bool.and_eq_true, Bool.or_eq_true, Bool.not_eq_true', laneChanged_iff]

/-- R152: under all-ones masks no bit of a change is hidden. -/
theorem filterAdmits_iff_of_change_ones (hmode : c.acceptUnchanging = true)
    (hmask : c.mask = ⟨0xFFFFFFFF, 0xFFFFFFFF, 0xFFFFFFFF, 0xFFFFFFFF⟩) :
    filterAdmits c f raw = true ↔ raw.valid = true ∧ (f.prevValid = false ∨ f.prev ≠ raw.lane) := by
  have hones (x : Word) : x &&& 0xFFFFFFFF = x := BitVec.and_allOnes
  have hlanes : f.prev ≠ raw.lane ↔
      raw.lane.l0 ≠ f.prev.l0 ∨ raw.lane.l1 ≠ f.prev.l1 ∨ raw.lane.l2 ≠ f.prev.l2 ∨ raw.lane.l3 ≠ f.prev.l3 := by
    rw [ne_comm, ne_eq, Lanes.mk.injEq]
    simp only [not_and_or, ne_eq]
  rw [filterAdmits_iff_of_change hmode, hmask, hlanes]
  simp only [hones]

/-! ## What a sample leaves -/

/-- R153: an admitted sample becomes the history. -/
theorem filterNext_of_admitted (h : filterAdmits c f raw = true) : filterNext c raw f = ⟨raw.lane, true⟩ := by
  rw [filterNext, if_pos h]

/-- R154: an admitted sample passes. -/
theorem filtered_of_admitted (h : filterAdmits c f raw = true) : filtered c f raw = raw := by
  rw [filtered, if_pos h]

/-- R154: a sample that is not admitted leaves as no sample. -/
theorem filtered_of_not_admitted (h : filterAdmits c f raw = false) : filtered c f raw = Sample4.zero := by
  rw [filtered, if_neg (ne_true_of_eq_false h)]

/-- R152: neither mode admits an invalid sample. -/
theorem filterAdmits_of_invalid (h : raw.valid = false) : filterAdmits c f raw = false := by
  rw [filterAdmits, h, Bool.false_and]

end

/-! ## The modes, and the repeated sample -/

/-- Settles O47: each mode is a tick whose history goes by what that mode admits; the chain and the master do not look at the filter. -/
theorem filterAdmitsAndRemembers : Obligations.FilterAdmitsAndRemembers := by
  intro s hports raw m v p
  refine ⟨⟨tickNext .none (filterModeInputs false s) s, exec_of_portsDefined hports rfl rfl rfl, ?matched, rfl, rfl, rfl,
    keepsSurroundings_tickNext ..⟩, ⟨tickNext .none (filterModeInputs true s) s, exec_of_portsDefined hports rfl rfl rfl, ?changed,
    rfl, rfl, rfl, keepsSurroundings_tickNext ..⟩⟩
  case matched => exact if_congr (filterAdmits_iff_of_match rfl) rfl rfl
  case changed => exact if_congr (filterAdmits_iff_of_change rfl) rfl rfl

/-- Settles O48: the first A is new, so it becomes the history; the second is the history, so it changes nothing; B differs from it. -/
theorem duplicateSampleIsDropped : Obligations.DuplicateSampleIsDropped := by
  intro c f a b hmode hmask hab hnew f1 f2
  have hadmits (g : FilterState) (l : Lanes) : filterAdmits c g ⟨true, l⟩ = true ↔ g.prevValid = false ∨ g.prev ≠ l :=
    (filterAdmits_iff_of_change_ones hmode hmask).trans (and_iff_right rfl)
  have hfirst : filterAdmits c f ⟨true, a⟩ = true := (hadmits f a).mpr hnew
  have hf1 : f1 = ⟨a, true⟩ := filterNext_of_admitted hfirst
  have hsecond : filterAdmits c f1 ⟨true, a⟩ = false := by
    rw [← Bool.not_eq_true, hadmits, hf1]
    simp
  have hf2 : f2 = ⟨a, true⟩ := (filterNext_of_not_admitted hsecond).trans hf1
  have hthird : filterAdmits c f2 ⟨true, b⟩ = true := (hadmits f2 b).mpr (.inr (by rwa [hf2]))
  refine ⟨⟨filtered_of_admitted hfirst, filtered_of_not_admitted hsecond, filtered_of_admitted hthird⟩, fun g l => ?invalid⟩
  case invalid =>
    have hinvalid : filterAdmits c g ⟨false, l⟩ = false := filterAdmits_of_invalid rfl
    exact ⟨filterNext_of_not_admitted hinvalid, filtered_of_not_admitted hinvalid⟩

end Sys2Proof.Machine
end

section
/-! SUPPORT. ValueBound in the arithmetic of naturals: the shifted value, its field, the test whether it fits the window, and from these the
result; then what a tick stores and passes on. -/

namespace Sys2Proof.Machine

/-! ## The result as a number -/

theorem maxU_toNat {n : Nat} (a b : BitVec n) : (maxU a b).toNat = max a.toNat b.toNat := by
  rw [maxU, Nat.max_def, apply_ite BitVec.toNat]

theorem minU_toNat {n : Nat} (a b : BitVec n) : (minU a b).toNat = min a.toNat b.toNat := by
  rw [minU, Nat.min_def, apply_ite BitVec.toNat]

section
variable (c : ValueBoundCfg) (stored lane : Word)

theorem boundShifted_toNat : (boundShifted c lane).toNat = (lane - c.base).toNat / 2 ^ c.shift.toNat := by
  rw [boundShifted, BitVec.toNat_ushiftRight, Nat.shiftRight_eq_div_pow]

/-- R156: the field is what the window keeps of the shifted value. -/
theorem boundField_toNat : (boundField c lane).toNat = (boundShifted c lane).toNat % 2 ^ windowWidth c := by
  have hwidth : 2 ^ windowWidth c ≤ 2 ^ 32 := Nat.pow_le_pow_right (by decide) (Nat.min_le_right ..)
  have hmask : (BitVec.ofNat 32 (2 ^ windowWidth c - 1)).toNat = 2 ^ windowWidth c - 1 := by
    have hpos : 0 < 2 ^ windowWidth c := Nat.two_pow_pos _
    exact toNat_ofNat_of_lt (by omega)
  rw [boundField, BitVec.toNat_and, hmask, Nat.and_two_pow_sub_one_eq_mod]

/-- R156: nothing is left above the window exactly if the shifted value fits it. -/
theorem boundShifted_ushiftRight_eq_zero_iff :
    boundShifted c lane >>> windowWidth c = 0 ↔ (boundShifted c lane).toNat < 2 ^ windowWidth c := by
  rw [← BitVec.toNat_inj, BitVec.toNat_ushiftRight, Nat.shiftRight_eq_div_pow]
  exact Nat.div_eq_zero_iff_lt (Nat.two_pow_pos _)

/-- R156: the field of a value that fits, and else the reduction of the field with the stored one. -/
theorem valueBoundResult_toNat :
    (valueBoundResult c stored lane).toNat =
      if (boundShifted c lane).toNat < 2 ^ windowWidth c then (boundField c lane).toNat
      else if c.maxMin then max stored.toNat (boundField c lane).toNat else min stored.toNat (boundField c lane).toNat := by
  rw [valueBoundResult]
  by_cases hfits : (boundShifted c lane).toNat < 2 ^ windowWidth c
  · rw [if_pos hfits, if_neg (not_not_intro ((boundShifted_ushiftRight_eq_zero_iff c lane).mpr hfits))]
  · rw [if_neg hfits, if_pos (mt (boundShifted_ushiftRight_eq_zero_iff c lane).mp hfits), apply_ite BitVec.toNat, maxU_toNat, minU_toNat]

end

/-! ## The stored reduction and the bounded sample -/

section
variable {c : ValueBoundCfg} {fs : Sample4} (stored : Word)

theorem valueBoundNext_of_valid (henable : c.enable = true) (hvalid : fs.valid = true) :
    valueBoundNext c fs stored = valueBoundResult c stored fs.lane.l0 := by
  rw [valueBoundNext, if_pos henable, if_pos hvalid]

theorem valueBoundNext_of_invalid (henable : c.enable = true) (hvalid : fs.valid = false) : valueBoundNext c fs stored = stored := by
  rw [valueBoundNext, if_pos henable, if_neg (ne_true_of_eq_false hvalid)]

theorem valueBoundNext_of_disabled (henable : c.enable = false) : valueBoundNext c fs stored = 0 := by
  rw [valueBoundNext, if_neg (ne_true_of_eq_false henable)]

/-- R150: lane 0 of the bounded sample is what ValueBound stores in the same tick. -/
theorem boundedSample_of_valid (henable : c.enable = true) (hvalid : fs.valid = true) :
    boundedSample c stored fs = ⟨true, ⟨valueBoundNext c fs stored, fs.lane.l1, fs.lane.l2, fs.lane.l3⟩⟩ := by
  rw [boundedSample, henable, hvalid, valueBoundNext_of_valid stored henable hvalid]
  rfl

/-- R150: an invalid sample passes ValueBound as it is. -/
theorem boundedSample_of_invalid (hvalid : fs.valid = false) : boundedSample c stored fs = fs := by
  rw [boundedSample, hvalid, Bool.and_false, if_neg Bool.false_ne_true]

/-- R150: not enabled, ValueBound passes every sample as it is. -/
theorem boundedSample_of_disabled (henable : c.enable = false) : boundedSample c stored fs = fs := by
  rw [boundedSample, henable, Bool.false_and, if_neg Bool.false_ne_true]

end

/-- Settles O49: the tick stores ValueBound's result, a number by `valueBoundResult_toNat`; nothing before the reducers looks at it. -/
theorem valueBoundTracksTheReduction : Obligations.ValueBoundTracksTheReduction := by
  refine ⟨?enabled, ?disabled⟩
  case enabled =>
    intro s maxMin hports c fs w y e
    refine ⟨tickNext .none (valueBoundInputs maxMin s) s, exec_of_portsDefined hports rfl rfl rfl, ?invalid, ?valid, rfl, rfl, rfl, rfl,
      keepsSurroundings_tickNext ..⟩
    case invalid =>
      intro hvalid
      exact ⟨valueBoundNext_of_invalid (c := (valueBoundInputs maxMin s).rcfg.vb) s.vbStored rfl hvalid,
        boundedSample_of_invalid s.vbStored hvalid⟩
    case valid =>
      intro hvalid
      refine ⟨?stored, boundedSample_of_valid (c := (valueBoundInputs maxMin s).rcfg.vb) s.vbStored rfl hvalid⟩
      have hstored : (tickNext .none (valueBoundInputs maxMin s) s).vbStored =
          valueBoundResult (valueBoundInputs maxMin s).rcfg.vb s.vbStored fs.lane.l0 :=
        valueBoundNext_of_valid (c := (valueBoundInputs maxMin s).rcfg.vb) s.vbStored rfl hvalid
      rw [hstored, valueBoundResult_toNat, boundField_toNat, boundShifted_toNat]
      rfl
  case disabled =>
    intro op inp s t hreset henable htick
    obtain rfl := eq_tickNext_of_captureTick_next hreset htick
    exact ⟨valueBoundNext_of_disabled s.vbStored henable, boundedSample_of_disabled s.vbStored henable⟩

end Sys2Proof.Machine
end

section
/-! SUPPORT. OffsetBound in the arithmetic of naturals, and a tick under another OffsetBound: of the record request only the address is
another, so a tick that records no data is the same, and one that accesses a word differs in the store alone. -/

namespace Sys2Proof.Machine

/-! ## The bucket as a number -/

/-- R157: 0 below the base, and else the offset or its bucket, clipped to the last address. -/
theorem offsetBoundResult_toNat (c : OffsetBoundCfg) (l : Lanes) {src y : Nat}
    (hsrc : src = if c.useData1 then l.l1.toNat else l.l0.toNat)
    (hy : y = if c.noBkts then src - c.base.toNat else (src - c.base.toNat) / 2 ^ c.shift.toNat) :
    (offsetBoundResult c l).toNat = if src < c.base.toNat then 0 else min y 2047 := by
  have hlane : (if c.useData1 then l.l1 else l.l0).toNat = src := by rw [hsrc, apply_ite BitVec.toNat]
  simp only [offsetBoundResult, hlane]
  by_cases hbelow : src < c.base.toNat
  · rw [if_pos hbelow, if_pos hbelow]
    rfl
  rw [if_neg hbelow, if_neg hbelow]
  have hoffset : ((if c.useData1 then l.l1 else l.l0) - c.base).toNat = src - c.base.toNat := by
    rw [BitVec.toNat_sub_of_le (BitVec.le_def.mpr (hlane ▸ Nat.le_of_not_lt hbelow)), hlane]
  generalize hY : (if c.noBkts = true then _ else _ : Word) = Y
  have hbucket : Y.toNat = y := by
    rw [← hY, hy, apply_ite BitVec.toNat, BitVec.toNat_ushiftRight, Nat.shiftRight_eq_div_pow, hoffset]
  by_cases hclip : 2048 ≤ Y.toNat
  · rw [if_pos hclip, ← hbucket, Nat.min_eq_right (by omega)]
    rfl
  · rw [if_neg hclip, BitVec.toNat_setWidth, Nat.mod_eq_of_lt (by omega), hbucket, Nat.min_eq_left (by omega)]

/-! ## A tick under another OffsetBound -/

/-- R158: a record request without data is an invalidating one. -/
theorem tickFired_inval_of_tickRecord_valid {inp : CaptureInputs} {s : State} (hrecord : (tickRecord inp s).valid = true)
    (hdata : (tickFired inp s).data = false) : (tickFired inp s).inval = true := by
  simp only [tickRecord, recordRequest, hdata, Bool.false_or, Bool.and_eq_true] at hrecord
  obtain ⟨-, hinval⟩ := hrecord
  exact hinval

/-- R160: a record request that invalidates executes the retract, whatever its address. -/
theorem tickRingOp_of_inval {inp : CaptureInputs} {s : State} (hrecord : (tickRecord inp s).valid = true)
    (hinval : (tickFired inp s).inval = true) : tickRingOp inp s = .retract inp.rcfg.recordOp := by
  rw [tickRingOp, tickGrant_of_record hrecord, grantedOp, if_pos (show (tickRecord inp s).invalidate = true from hinval)]
  rfl

section
variable {s : State} {useData1 noBkts : Bool}

/-- R159: without a record request the arbiter does not look at OffsetBound. -/
theorem tickGrant_offsetBoundInputs (hrecord : (tickRecord s.inputs.cap s).valid = false) :
    tickGrant (offsetBoundInputs useData1 noBkts s) s = tickGrant s.inputs.cap s := by
  have hrecord' : (tickRecord (offsetBoundInputs useData1 noBkts s) s).valid = false := hrecord
  rw [tickGrant, arbitrate, if_neg (ne_true_of_eq_false hrecord'), tickGrant, arbitrate, if_neg (ne_true_of_eq_false hrecord)]
  rfl

/-- R157: in a tick that records no data OffsetBound's address is used by nothing. -/
theorem tickRingOp_offsetBoundInputs (hdata : (tickFired s.inputs.cap s).data = false) :
    tickRingOp (offsetBoundInputs useData1 noBkts s) s = tickRingOp s.inputs.cap s := by
  cases hrecord : (tickRecord s.inputs.cap s).valid with
  | false => rw [tickRingOp, tickGrant_offsetBoundInputs hrecord, tickRingOp]
  | true =>
    have hinval := tickFired_inval_of_tickRecord_valid hrecord hdata
    rw [tickRingOp_of_inval hrecord hinval, tickRingOp_of_inval (inp := offsetBoundInputs useData1 noBkts s) hrecord hinval]
    rfl

/-- R180: the service response does not look at OffsetBound: the record request it belongs to is no service request. -/
theorem tickSvcResp_offsetBoundInputs : tickSvcResp (offsetBoundInputs useData1 noBkts s) s = tickSvcResp s.inputs.cap s := by
  cases hrecord : (tickRecord s.inputs.cap s).valid with
  | true => rw [tickSvcResp_of_record hrecord, tickSvcResp_of_record (inp := offsetBoundInputs useData1 noBkts s) hrecord]
  | false =>
    have hgrant := tickGrant_offsetBoundInputs (useData1 := useData1) (noBkts := noBkts) hrecord
    rw [tickSvcResp, tickRingOp, hgrant, tickSvcResp, tickRingOp]

/-- R157: OffsetBound reaches the ring and its status, and nothing else of the tick. -/
theorem tickNext_offsetBoundInputs (op : MasterOp) :
    tickNext op (offsetBoundInputs useData1 noBkts s) s =
      { tickNext op s.inputs.cap s with
        ring := tickRing (offsetBoundInputs useData1 noBkts s) s
        fifo := fifoNext s.inputs.cap.rcfg (tickRingOp (offsetBoundInputs useData1 noBkts s) s) s.ring.occ
          (tickRing (offsetBoundInputs useData1 noBkts s) s).occ } := by
  simp only [tickNext, tickSvcResp_offsetBoundInputs]
  rfl

/-- R161, R178: two accesses move no pointer and raise no flag, so their ticks differ in the store alone. -/
theorem sameButStore_offsetBoundInputs {op : MasterOp} {a a' : RingAddr} {args args' : AluArgs}
    (hop : tickRingOp (offsetBoundInputs useData1 noBkts s) s = .access a (some args))
    (hop' : tickRingOp s.inputs.cap s = .access a' (some args')) :
    SameButStore (tickNext op (offsetBoundInputs useData1 noBkts s) s) (tickNext op s.inputs.cap s) := by
  have hfifo : (tickNext op (offsetBoundInputs useData1 noBkts s) s).fifo = (tickNext op s.inputs.cap s).fifo := by
    rw [tickNext_fifo, tickRing_of_access hop, hop, tickNext_fifo, tickRing_of_access hop', hop']
    rfl
  have hring : (tickNext op (offsetBoundInputs useData1 noBkts s) s).ring =
      { (tickNext op s.inputs.cap s).ring with mem := (tickNext op (offsetBoundInputs useData1 noBkts s) s).ring.mem } := by
    rw [tickNext_ring, tickRing_of_access hop, tickNext_ring, tickRing_of_access hop']
  calc tickNext op (offsetBoundInputs useData1 noBkts s) s
      = { tickNext op s.inputs.cap s with
          ring := (tickNext op (offsetBoundInputs useData1 noBkts s) s).ring
          fifo := (tickNext op (offsetBoundInputs useData1 noBkts s) s).fifo } := tickNext_offsetBoundInputs op
    _ = { tickNext op s.inputs.cap s with
          ring :=
            { (tickNext op s.inputs.cap s).ring with mem := (tickNext op (offsetBoundInputs useData1 noBkts s) s).ring.mem } } := by
      rw [hfifo, ← hring]

end

/-- Settles O50: a recorded sample is an access at OffsetBound's address; without one the tick is that of the ports. -/
theorem offsetBoundAddressesTheBucket : Obligations.OffsetBoundAddressesTheBucket := by
  intro s useData1 noBkts hports c l src y v
  have hexec : exec (.offsetBound useData1 noBkts) s = .next (tickNext .none (offsetBoundInputs useData1 noBkts s) s) :=
    exec_of_portsDefined hports rfl rfl rfl
  refine ⟨?recorded, ?unrecorded⟩
  case recorded =>
    intro hdata hrecordOp halu
    have hop := tickRingOp_of_recordedAccess (inp := offsetBoundInputs useData1 noBkts s) hdata hrecordOp
    refine ⟨_, tickOffset (offsetBoundInputs useData1 noBkts s) s, hexec, offsetBoundResult_toNat _ _ rfl rfl, ?word, ?frame,
      sameButStore_offsetBoundInputs hop (tickRingOp_of_recordedAccess hdata hrecordOp)⟩
    case word =>
      rw [tickNext_ring, tickRing_of_access_defined hop halu]
      exact Memory.read_write_self ..
    case frame =>
      rw [tickNext_ring, tickRing_of_access_defined hop halu]
      exact keepsStoreBut_write _ _ _
  case unrecorded =>
    intro hdata
    rw [hexec, tickNext_offsetBoundInputs, tickRing, tickRingOp_offsetBoundInputs hdata]
    rfl

end Sys2Proof.Machine
end

section
/-! SUPPORT. A granted service request: the tick in which the host's request is the one executed is said once, and each addressing op is
that tick with the ring operation the op stands for. -/

namespace Sys2Proof.Machine

/-! ## The grant -/

section
variable {inp : CaptureInputs} {s : State}

/-- R22: while the crossing presents nothing, the port carries the host's request. -/
theorem serviceRequest_of_not_presents (hhost : s.xing.presents inp.xPresent = false) : serviceRequest s.xing inp = inp.svcReq := by
  rw [serviceRequest, if_neg (ne_true_of_eq_false hhost)]

/-- R159: without a record request the host's valid request is granted. -/
theorem tickGrant_of_service (hfree : ServiceFree inp s) (hvalid : inp.svcReq.valid = true) : tickGrant inp s = .service inp.svcReq := by
  obtain ⟨hrecord, hhost⟩ := hfree
  rw [tickGrant, serviceRequest_of_not_presents hhost, arbitrate, if_neg (ne_true_of_eq_false hrecord), if_pos hvalid]

end

/-! ## The tick of a granted addressing op -/

/-- R159, R160: the host's addressing op, granted, is the tick in which the ring executes `op` and answers it; the rest of the tick does
not look at the service request. -/
theorem exec_grantedServiceOp {s : State} {i : Instr} {code : BitVec 2} {op : RingOp}
    (hi : captureInputsOf i s = some (.none, ringOpInputs code .service s)) (hreset : s.inputs.cap.reset = false)
    (hfree : ServiceFree s.inputs.cap s) (hop : grantedOp (.service (ringOpInputs code .service s).svcReq) = some op) :
    ∃ t, exec i s = .next t ∧ t.ring = runRing (Config.reservedAluResult s.free) op s.ring ∧ t.svcResp = svcNext true op s.ring ∧
      t.fifo = fifoNext s.inputs.cap.rcfg op s.ring.occ t.ring.occ ∧ SameSampleSide t (tickNext .none s.inputs.cap s) ∧
      t.trig = (tickNext .none s.inputs.cap s).trig ∧ t.timer = (tickNext .none s.inputs.cap s).timer ∧ KeepsSurroundings s t := by
  have hgrant : tickGrant (ringOpInputs code .service s) s = .service (ringOpInputs code .service s).svcReq :=
    tickGrant_of_service hfree rfl
  have hring : tickRingOp (ringOpInputs code .service s) s = op := by rw [tickRingOp, hgrant, hop]; rfl
  have hnext : captureTick .none (ringOpInputs code .service s) s = .next (tickNext .none (ringOpInputs code .service s) s) :=
    captureTick_of_defined hreset (by rw [grantsServicePush, hgrant, hop]; rfl)
  refine ⟨tickNext .none (ringOpInputs code .service s) s, (exec_eq_captureTick hi).trans hnext, ?ring, ?response, ?status,
    ⟨rfl, rfl, rfl, rfl, rfl⟩, rfl, rfl, keepsSurroundings_tickNext ..⟩
  case ring => rw [tickNext_ring, tickRing, hring]
  case response => rw [tickNext_svcResp, tickSvcResp, hgrant, hring]; rfl
  case status => rw [tickNext_fifo, hring]; rfl

/-! ## The four addressing ops -/

/-- Settles O35: the tick executes an access, which reads, and stores exactly if the request writes. -/
theorem serviceAccessReadsAndWrites : Obligations.ServiceAccessReadsAndWrites := by
  intro s hreset hfree
  obtain ⟨t, hexec, hring, hresp, hfifo, hsurroundings⟩ := exec_grantedServiceOp (i := .access .service) rfl hreset hfree rfl
  replace hring : t.ring = accessRing _ _ _ s.ring := hring
  have hwp : t.ring.wp = s.ring.wp := by rw [hring, accessRing_wp]
  have hrp : t.ring.rp = s.ring.rp := by rw [hring, accessRing_rp]
  refine ⟨t, hexec, hresp, ?unwritten, ?written, hwp, hrp, ?live, ?level, hsurroundings⟩
  case unwritten =>
    intro hflag
    rw [hring, show (ringOpInputs 0 .service s).svcReq.writeFlag = false from hflag]
    rfl
  case written =>
    intro hflag
    rw [hring, show (ringOpInputs 0 .service s).svcReq.writeFlag = true from hflag, if_pos rfl, accessRing_some_mem]
    exact ⟨keepsStoreBut_write _ _ _, fun halu => (Memory.read_write_self ..).trans (alu_defined halu ..)⟩
  case live => rw [hring, accessRing_lastPushLive]
  case level => rw [hfifo]; exact congrArg₂ (· - ·) hwp hrp

/-- R178: what `reset_ptrs` reports: from an occupancy of 0 after the tick no high watermark is reached, and the low one is if the
occupancy before was above it. -/
theorem fifoNext_resetPtrs (c : TraceConfig) (occ : RingPtr) :
    fifoNext c .resetPtrs occ 0 = ⟨0, false, decide (c.lowWatermark.toNat < occ.toNat), false, false⟩ := by
  have hhigh : occ.toNat < c.highWatermark.toNat → c.highWatermark.toNat ≠ 0 := Nat.ne_zero_of_lt
  simpa [fifoNext] using hhigh

/-- Settles O36: the tick executes `reset_ptrs`, after which both pointers are 0 and so is the occupancy. -/
theorem resetPtrsEmptiesTheBuffer : Obligations.ResetPtrsEmptiesTheBuffer := by
  intro s hreset hfree
  obtain ⟨t, hexec, hring, hresp, hfifo, hsurroundings⟩ := exec_grantedServiceOp (i := .resetPtrs .service) rfl hreset hfree rfl
  have hocc : t.ring.occ = 0 := (congrArg Ring.occ hring).trans (occ_zero_pointers ..)
  exact ⟨t, hexec, hring, hresp, by rw [hfifo, hocc, fifoNext_resetPtrs], hsurroundings⟩

/-- Settles O37: the tick executes a pop, which goes by whether the buffer is empty. -/
theorem popReturnsTheOldestWord : Obligations.PopReturnsTheOldestWord := by
  intro s hreset hfree
  obtain ⟨t, hexec, hring, hresp, hfifo, hsurroundings⟩ := exec_grantedServiceOp (i := .pop .service) rfl hreset hfree rfl
  replace hring : t.ring = popRing s.ring := hring
  refine ⟨t, hexec, ?empty, ?nonempty, hsurroundings⟩
  case empty =>
    intro hempty
    exact ⟨by rw [hring, popRing_empty _ hempty], by rw [hresp, svcNext_pop, if_pos hempty], by rw [hfifo]; exact decide_eq_true hempty⟩
  case nonempty =>
    intro hsome
    rw [hring, popRing_some _ hsome, hresp, svcNext_pop, if_neg hsome, hfifo]
    exact ⟨rfl, rfl, rfl, rfl, rfl, decide_eq_false hsome⟩

/-- Settles O39: the grant of the push is refused; a record request takes the grant away from it, and the tick goes on as without it. -/
theorem servicePushIsRefusedOnlyWhenGranted : Obligations.ServicePushIsRefusedOnlyWhenGranted := by
  intro s hreset hhost
  refine ⟨fun hrecord => ?granted, fun hrecord => ?waiting⟩
  case granted =>
    have hgrant := tickGrant_of_service (inp := ringOpInputs 2 .service s) ⟨hrecord, hhost⟩ rfl
    have hpush : grantsServicePush (ringOpInputs 2 .service s) s = true := by rw [grantsServicePush, hgrant]; rfl
    rw [exec_eq_captureTick (i := .push .service) rfl, captureTick,
      if_neg (ne_true_of_eq_false (show (ringOpInputs 2 .service s).reset = false from hreset)), if_pos hpush]
  case waiting =>
    have hrecord' : (tickRecord (ringOpInputs 2 .service s) s).valid = true := hrecord
    have hpush : grantsServicePush (ringOpInputs 2 .service s) s = false := by rw [grantsServicePush_eq, hrecord']; rfl
    refine ⟨tickNext .none (ringOpInputs 2 .service s) s, (exec_eq_captureTick rfl).trans (captureTick_of_defined hreset hpush),
      tickSvcResp_of_record hrecord', ?ring⟩
    case ring =>
      rw [tickNext_ring, tickNext_ring, tickRing, tickRingOp, tickGrant_of_record hrecord', tickRing, tickRingOp,
        tickGrant_of_record hrecord]
      rfl

end Sys2Proof.Machine
end

section
/-! SUPPORT. What every capture tick says of the buffer: FifoStatus from the occupancies and the operation executed, and the pointers from
the operation alone. -/

namespace Sys2Proof.Machine

/-! ## FifoStatus -/

section
variable (c : TraceConfig) (op : RingOp) (occ occ' : RingPtr)

theorem fifoNext_highWatermark_iff :
    (fifoNext c op occ occ').highWatermarkReached = true ↔
      occ.toNat < c.highWatermark.toNat ∧ c.highWatermark.toNat ≤ occ'.toNat := by
  simp only [fifoNext, Bool.and_eq_true, decide_eq_true_eq]

theorem fifoNext_lowWatermark_iff :
    (fifoNext c op occ occ').lowWatermarkReached = true ↔ c.lowWatermark.toNat < occ.toNat ∧ occ'.toNat ≤ c.lowWatermark.toNat := by
  simp only [fifoNext, Bool.and_eq_true, decide_eq_true_eq]

/-- R178: only a push can overflow. -/
theorem fifoNext_overflow_iff : (fifoNext c op occ occ').overflow = true ↔ occ = 2048 ∧ ∃ args, op = .push args := by
  cases op with
  | push args => simp [fifoNext]
  | idle | access | resetPtrs | pop | retract => simp [fifoNext]

/-- R178: only a pop can underflow. -/
theorem fifoNext_underflow_iff : (fifoNext c op occ occ').underflow = true ↔ occ = 0 ∧ op = .pop := by
  cases op with
  | pop => simp [fifoNext]
  | idle | access | resetPtrs | push | retract => simp [fifoNext]

end

/-- Settles O43: the status of the tick is `fifoNext`, field by field. -/
theorem fifoStatusAfterEveryTick : Obligations.FifoStatusAfterEveryTick := by
  intro op inp s t hreset htick
  obtain rfl := eq_tickNext_of_captureTick_next hreset htick
  exact ⟨rfl, fifoNext_highWatermark_iff .., fifoNext_lowWatermark_iff .., fifoNext_overflow_iff .., fifoNext_underflow_iff ..⟩

/-! ## The pointers -/

@[simp] theorem pushRing_rp (rsv : Word) (args : AluArgs) (r : Ring) : (pushRing rsv args r).rp = r.rp := by
  unfold pushRing; split <;> rfl

theorem pushRing_wp (rsv : Word) (args : AluArgs) (r : Ring) :
    (pushRing rsv args r).wp = if r.occ = 2048 then r.wp else r.wp + 1 := by
  unfold pushRing; split <;> rfl

theorem popRing_rp (r : Ring) : (popRing r).rp = if r.occ = 0 then r.rp else r.rp + 1 := by
  unfold popRing; split <;> rfl

theorem retractRing_wp (code : BitVec 2) (r : Ring) :
    (retractRing code r).wp = if code = 2 ∧ r.lastPushLive = true then r.wp - 1 else r.wp := by
  unfold retractRing; split <;> rfl

/-- The ring after a tick is what the tick's operation makes of it. -/
theorem tickRing_of_ringOp {inp : CaptureInputs} {s : State} {op : RingOp} (h : tickRingOp inp s = op) :
    tickRing inp s = runRing (Config.reservedAluResult s.free) op s.ring := by
  rw [tickRing, h]

/-- Settles O60: one case per ring operation, each by the pointers that operation leaves. -/
theorem onePointerMovesByOne : Obligations.OnePointerMovesByOne := by
  intro op inp s t hreset htick
  obtain rfl := eq_tickNext_of_captureTick_next hreset htick
  rw [tickNext_ring]
  refine ⟨fun args hop => ?push, fun hop => ?pop, fun code hop => ?retract, fun hop => ?resetPtrs, fun a write hop => ?access,
    fun hop => ?idle⟩ <;> rw [tickRing_of_ringOp hop, runRing]
  case push => exact ⟨pushRing_rp .., pushRing_wp ..⟩
  case pop => exact ⟨popRing_wp .., popRing_rp ..⟩
  case retract => exact ⟨retractRing_rp .., retractRing_wp ..⟩
  case resetPtrs => exact ⟨rfl, rfl⟩
  case access => exact ⟨accessRing_wp .., accessRing_rp ..⟩
  case idle => exact ⟨rfl, rfl⟩

end Sys2Proof.Machine
end

section
/-! SUPPORT. The buffer as a queue: its contents are the words from `rp` up to `wp`, a push appends its word, a pop takes the first away,
and so words leave in the order in which they came. -/

namespace Sys2Proof.Machine

/-! ## The words of the store from a pointer on -/

/-- The `n` words of the store from the pointer `p` on, around the wrap (R33). -/
def wordsFrom (m : Memory) : RingPtr → Nat → List Word
  | _, 0 => []
  | p, n + 1 => Memory.read m (ptrAddr p) :: wordsFrom m (p + 1) n

/-- `n + 1` slots behind `p` are `n` slots behind the next. -/
theorem add_ofNat_succ (p : RingPtr) (n : Nat) : p + BitVec.ofNat 12 (n + 1) = p + 1 + BitVec.ofNat 12 n := by
  rw [BitVec.add_assoc, Nat.add_comm n 1, BitVec.ofNat_add]
  rfl

/-- The last of the words stands `n` slots further. -/
theorem wordsFrom_succ_last (m : Memory) (p : RingPtr) (n : Nat) :
    wordsFrom m p (n + 1) = wordsFrom m p n ++ [Memory.read m (ptrAddr (p + BitVec.ofNat 12 n))] := by
  induction n generalizing p with
  | zero => simp [wordsFrom]
  | succ n ih =>
    rw [wordsFrom, ih (p + 1), ← add_ofNat_succ]
    rfl

/-- R50: two pointers less than 2048 apart stand at different slots. -/
theorem ptrAddr_add_ne {p : RingPtr} {n : Nat} (hpos : 0 < n) (hlt : n < 2048) : ptrAddr (p + BitVec.ofNat 12 n) ≠ ptrAddr p := by
  intro h
  have h := congrArg BitVec.toNat h
  simp only [ptrAddr, BitVec.toNat_setWidth, BitVec.toNat_add, BitVec.toNat_ofNat] at h
  omega

/-- R54: a write to the slot behind `n` words, fewer than the store has slots, changes none of them. -/
theorem wordsFrom_write_behind (m : Memory) (p : RingPtr) (v : Word) {n : Nat} (hlt : n < 2048) :
    wordsFrom (Memory.write m (ptrAddr (p + BitVec.ofNat 12 n)) v) p n = wordsFrom m p n := by
  induction n generalizing p with
  | zero => rfl
  | succ n ih =>
    rw [wordsFrom, Memory.read_write_ne m v (ptrAddr_add_ne n.succ_pos hlt), add_ofNat_succ, ih (p + 1) (by omega)]
    rfl

/-! ## The contents of the buffer -/

/-- The words a ring holds, the oldest first (R34, R164). -/
def Ring.contents (r : Ring) : List Word := wordsFrom r.mem r.rp r.occ.toNat

theorem contents_empty {r : Ring} (hempty : r.occ = 0) : r.contents = [] := by
  rw [Ring.contents, hempty]
  rfl

theorem occ_toNat_pushRing {r : Ring} (rsv : Word) (args : AluArgs) (hroom : r.occ.toNat < 2048) :
    (pushRing rsv args r).occ.toNat = r.occ.toNat + 1 := by
  have hfull : r.occ ≠ 2048 := fun h => absurd (congrArg BitVec.toNat h) (Nat.ne_of_lt hroom)
  rw [pushRing_room rsv args r hfull, occ_wp_add_one]
  unfold Ring.occ at hroom ⊢
  bv_omega

theorem occ_toNat_popRing {r : Ring} (hsome : r.occ ≠ 0) : (popRing r).occ.toNat = r.occ.toNat - 1 := by
  rw [popRing_some r hsome, occ_rp_add_one]
  unfold Ring.occ at hsome ⊢
  bv_omega

/-- R163, R170: a push of `w` with `write32` into a buffer with room appends `w`. -/
theorem contents_pushRing {r : Ring} (rsv w n : Word) (hroom : r.occ.toNat < 2048) :
    (pushRing rsv ⟨2, w, n⟩ r).contents = r.contents ++ [w] := by
  have hfull : r.occ ≠ 2048 := fun h => absurd (congrArg BitVec.toNat h) (Nat.ne_of_lt hroom)
  have hwp : r.wp = r.rp + BitVec.ofNat 12 r.occ.toNat := by
    rw [BitVec.ofNat_toNat, BitVec.setWidth_eq, Ring.occ]
    ring
  rw [Ring.contents, occ_toNat_pushRing rsv _ hroom, pushRing_room rsv _ r hfull, wordsFrom_succ_last]
  simp only [hwp, wordsFrom_write_behind _ _ _ hroom, Memory.read_write_self]
  rfl

/-- R164: a pop takes the word at `rp` away and leaves the others. -/
theorem contents_popRing {r : Ring} (hsome : r.occ ≠ 0) :
    r.contents = Memory.read r.mem (ptrAddr r.rp) :: (popRing r).contents := by
  obtain ⟨n, hn⟩ : ∃ n, r.occ.toNat = n + 1 := Nat.exists_eq_succ_of_ne_zero fun h => hsome (BitVec.eq_of_toNat_eq h)
  rw [Ring.contents, hn, wordsFrom, Ring.contents, occ_toNat_popRing hsome, hn, popRing_mem, popRing_rp, if_neg hsome]
  rfl

/-! ## Many pushes and many pops -/

/-- R163, R170: words pushed into a buffer with room for all of them stand behind what it held. -/
theorem pushAll_room (rsv : Word) (ws : List Word) {r : Ring} (hroom : r.occ.toNat + ws.length ≤ 2048) :
    (pushAll rsv ws r).occ.toNat = r.occ.toNat + ws.length ∧ (pushAll rsv ws r).contents = r.contents ++ ws := by
  induction ws generalizing r with
  | nil => exact ⟨rfl, (List.append_nil _).symm⟩
  | cons w ws ih =>
    rw [List.length_cons] at hroom
    have hslot : r.occ.toNat < 2048 := by omega
    have hocc := occ_toNat_pushRing rsv ⟨2, w, 1⟩ hslot
    obtain ⟨hlevel, hcontents⟩ := ih (r := pushRing rsv ⟨2, w, 1⟩ r) (by omega)
    refine ⟨hlevel.trans (by rw [hocc, List.length_cons]; omega), hcontents.trans ?_⟩
    rw [contents_pushRing rsv w 1 hslot, List.append_assoc]
    rfl

/-- R164: popping as many words as the buffer holds returns its contents and leaves it empty. -/
theorem drain_contents {n : Nat} {r : Ring} (hn : r.occ.toNat = n) : (drain n r).1 = r.contents ∧ (drain n r).2.occ = 0 := by
  induction n generalizing r with
  | zero =>
    have hempty : r.occ = 0 := BitVec.eq_of_toNat_eq hn
    exact ⟨(contents_empty hempty).symm, hempty⟩
  | succ n ih =>
    have hsome : r.occ ≠ 0 := fun h => by simp [h] at hn
    obtain ⟨hwords, hleft⟩ := ih (r := popRing r) (by rw [occ_toNat_popRing hsome, hn]; rfl)
    exact ⟨(congrArg _ hwords).trans (contents_popRing hsome).symm, hleft⟩

/-- Settles O45: the pushes append all the words to an empty queue, and the pops return the queue; at 2048 words it is full. -/
theorem pushedWordsPopInOrder : Obligations.PushedWordsPopInOrder := by
  intro rsv ws r hempty hlength
  have hzero : r.occ.toNat = 0 := congrArg BitVec.toNat hempty
  obtain ⟨hlevel, hcontents⟩ := pushAll_room rsv ws (r := r) (by omega)
  rw [hzero, Nat.zero_add] at hlevel
  rw [contents_empty hempty, List.nil_append] at hcontents
  have hocc : (pushAll rsv ws r).occ = BitVec.ofNat 12 ws.length := by rw [← hlevel, BitVec.ofNat_toNat, BitVec.setWidth_eq]
  obtain ⟨hwords, hleft⟩ := drain_contents hlevel
  exact ⟨hocc, hwords.trans hcontents, hleft, fun hfull args => pushRing_full rsv args _ (by rw [hocc, hfull]; rfl)⟩

end Sys2Proof.Machine
end

section
/-! SUPPORT. A tick under another ALU op: the op reaches the operation of the tick and, behind it, the one word that operation stores; the
pointers, the status and the response do not look at it. -/

namespace Sys2Proof.Machine

/-! ## The ring operation under another ALU op -/

/-- The operation with another ALU op for the word it stores, if it stores one. -/
def RingOp.withAlu (code : BitVec 4) : RingOp → RingOp
  | .access address write => .access address (write.map fun args => { args with op := code })
  | .push args => .push { args with op := code }
  | .idle => .idle
  | .resetPtrs => .resetPtrs
  | .pop => .pop
  | .retract recordOp => .retract recordOp

/-- R178: FifoStatus does not look at the ALU op. -/
theorem fifoNext_withAlu (c : TraceConfig) (code : BitVec 4) (op : RingOp) (occ occ' : RingPtr) :
    fifoNext c (op.withAlu code) occ occ' = fifoNext c op occ occ' := by
  cases op <;> rfl

/-- R180: the response does not look at the ALU op. -/
theorem svcNext_withAlu (ack : Bool) (code : BitVec 4) (op : RingOp) (r : Ring) : svcNext ack (op.withAlu code) r = svcNext ack op r := by
  cases op <;> rfl

/-- R167: the ALU op reaches the store alone. -/
theorem runRing_withAlu (rsv : Word) (code : BitVec 4) (op : RingOp) (r : Ring) :
    runRing rsv (op.withAlu code) r = { runRing rsv op r with mem := (runRing rsv (op.withAlu code) r).mem } := by
  cases op with
  | access address write => cases write <;> rfl
  | push args =>
    by_cases hfull : r.occ = 2048
    · simp only [RingOp.withAlu, runRing, pushRing_full _ _ _ hfull]
    · simp only [RingOp.withAlu, runRing, pushRing_room _ _ _ hfull]
  | idle => rfl
  | resetPtrs => rfl
  | pop => rfl
  | retract recordOp => rfl

/-- R54, R167: an operation that stores no word does the same under every ALU op. -/
theorem runRing_withAlu_of_no_store (rsv : Word) (code : BitVec 4) {op : RingOp} {r : Ring} (hstore : storeAddress op r = .none) :
    runRing rsv (op.withAlu code) r = runRing rsv op r := by
  cases op with
  | access address write =>
    cases write with
    | none => rfl
    | some args => cases hstore
  | push args =>
    have hfull : r.occ = 2048 := by
      by_contra hroom
      rw [storeAddress, if_neg hroom] at hstore
      cases hstore
    simp only [RingOp.withAlu, runRing, pushRing_full _ _ _ hfull]
  | idle => rfl
  | resetPtrs => rfl
  | pop => rfl
  | retract recordOp => rfl

/-- R161, R163: under another ALU op the word is stored at the same place, from the same operands. -/
theorem runRing_withAlu_mem_of_storesWith (rsv : Word) (code : BitVec 4) {op : RingOp} {r : Ring} {a : RingAddr} {args : AluArgs}
    (hstores : StoresWith op r a args) :
    (runRing rsv (op.withAlu code) r).mem = Memory.write r.mem a (alu rsv ⟨code, args.v, args.n⟩ (Memory.read r.mem a)) := by
  rcases hstores with rfl | ⟨rfl, hroom, rfl⟩
  · rfl
  · rw [RingOp.withAlu, runRing, pushRing_room _ _ _ hroom]

/-! ## The tick under another ALU op -/

section
variable (code : BitVec 4) (s : State)

/-- R158: the record request carries the ALU op of the configuration. -/
theorem tickRecord_aluInputs : tickRecord (aluInputs code s) s = { tickRecord s.inputs.cap s with aluOp := code } := rfl

/-- R160: a granted record request executes its operation with the ALU op it carries. -/
theorem grantedOp_record_withAlu (r : RecordRequest) :
    grantedOp (.record { r with aluOp := code }) = (grantedOp (.record r)).map (RingOp.withAlu code) := by
  simp only [grantedOp]
  split
  case isTrue => rfl
  case isFalse => split <;> rfl

/-- R160: and so does a granted service request. -/
theorem grantedOp_service_withAlu (q : ServiceRequest) :
    grantedOp (.service { q with aluOp := code }) = (grantedOp (.service q)).map (RingOp.withAlu code) := by
  simp only [grantedOp]
  split
  case h_1 => cases q.writeFlag <;> rfl
  case h_2 => rfl
  case h_3 => rfl
  case h_4 => rfl

/-- R22, R63: the crossing's request is its own, and the host's carries the ALU op; either is valid as before. -/
theorem serviceRequest_aluInputs :
    (serviceRequest s.xing (aluInputs code s)).valid = (serviceRequest s.xing s.inputs.cap).valid ∧
      grantedOp (.service (serviceRequest s.xing (aluInputs code s))) =
        (grantedOp (.service (serviceRequest s.xing s.inputs.cap))).map (RingOp.withAlu code) := by
  cases hpresents : s.xing.presents s.inputs.cap.xPresent with
  | true =>
    rw [serviceRequest_of_presents (inp := aluInputs code s) hpresents, serviceRequest_of_presents hpresents]
    exact ⟨rfl, rfl⟩
  | false =>
    rw [serviceRequest_of_not_presents (inp := aluInputs code s) hpresents, serviceRequest_of_not_presents hpresents]
    exact ⟨rfl, grantedOp_service_withAlu code s.inputs.cap.svcReq⟩

/-- R159, R160: the same request is granted, and it executes its operation with the ALU op presented. -/
theorem tickGrant_aluInputs :
    (tickGrant (aluInputs code s) s).isService = (tickGrant s.inputs.cap s).isService ∧
      grantedOp (tickGrant (aluInputs code s) s) = (grantedOp (tickGrant s.inputs.cap s)).map (RingOp.withAlu code) := by
  obtain ⟨hvalid, hservice⟩ := serviceRequest_aluInputs code s
  rw [tickGrant, tickGrant, tickRecord_aluInputs]
  simp only [arbitrate, hvalid]
  split
  case isTrue => exact ⟨rfl, grantedOp_record_withAlu code _⟩
  case isFalse =>
    split
    case isTrue => exact ⟨rfl, hservice⟩
    case isFalse => exact ⟨rfl, rfl⟩

theorem tickRingOp_aluInputs : tickRingOp (aluInputs code s) s = (tickRingOp s.inputs.cap s).withAlu code := by
  rw [tickRingOp, (tickGrant_aluInputs code s).2]
  exact Option.getD_map (RingOp.withAlu code) .idle _

theorem tickSvcResp_aluInputs : tickSvcResp (aluInputs code s) s = tickSvcResp s.inputs.cap s := by
  rw [tickSvcResp, (tickGrant_aluInputs code s).1, tickRingOp_aluInputs, svcNext_withAlu, tickSvcResp]

/-- R167: of the ring the tick leaves only the words of the store depend on the ALU op. -/
theorem tickRing_aluInputs :
    tickRing (aluInputs code s) s = { tickRing s.inputs.cap s with mem := (tickRing (aluInputs code s) s).mem } := by
  rw [tickRing, tickRingOp_aluInputs]
  exact runRing_withAlu ..

/-- R167: the ALU op reaches the ring, and nothing else of the tick. -/
theorem tickNext_aluInputs (op : MasterOp) :
    tickNext op (aluInputs code s) s = { tickNext op s.inputs.cap s with ring := tickRing (aluInputs code s) s } := by
  have hocc : (tickRing (aluInputs code s) s).occ = (tickRing s.inputs.cap s).occ := by rw [tickRing_aluInputs]; rfl
  simp only [tickNext, hocc, tickSvcResp_aluInputs, tickRingOp_aluInputs, fifoNext_withAlu]
  rfl

theorem sameButStore_aluInputs (op : MasterOp) : SameButStore (tickNext op (aluInputs code s) s) (tickNext op s.inputs.cap s) := by
  rw [SameButStore, tickNext_aluInputs]
  exact congrArg (fun ring => { tickNext op s.inputs.cap s with ring := ring }) (tickRing_aluInputs code s)

end

section
variable {s : State} {i : Instr} {code : BitVec 4}

/-- An ALU op is a capture tick under defined ports. -/
theorem exec_aluOp (hports : PortsDefined s) (hi : captureInputsOf i s = some (.none, aluInputs code s)) :
    exec i s = .next (tickNext .none (aluInputs code s) s) := by
  obtain ⟨hreset, hservice⟩ := hports
  exact (exec_eq_captureTick hi).trans (captureTick_of_defined hreset (grantsServicePush_of_port (inp := aluInputs code s) s hservice))

/-- R167: an ALU op in a tick that stores a word: that word is the ALU's result, and all else is as with any ALU op. -/
theorem exec_aluOp_of_storesWith {a : RingAddr} {args : AluArgs} (hports : PortsDefined s)
    (hi : captureInputsOf i s = some (.none, aluInputs code s)) (hstores : StoresWith (tickRingOp s.inputs.cap s) s.ring a args) :
    ∃ t, exec i s = .next t ∧
      Memory.read t.ring.mem a =
        alu (Config.reservedAluResult s.free) ⟨code, args.v, args.n⟩ (Memory.read s.ring.mem a) ∧
      KeepsStoreBut (some a) s.ring.mem t.ring.mem ∧ SameButStore t (tickNext .none s.inputs.cap s) := by
  have hmem : (tickRing (aluInputs code s) s).mem =
      Memory.write s.ring.mem a (alu (Config.reservedAluResult s.free) ⟨code, args.v, args.n⟩ (Memory.read s.ring.mem a)) := by
    rw [tickRing, tickRingOp_aluInputs]
    exact runRing_withAlu_mem_of_storesWith _ code hstores
  refine ⟨_, exec_aluOp hports hi, ?_⟩
  rw [tickNext_ring, hmem]
  exact ⟨Memory.read_write_self .., keepsStoreBut_write _ _ _, sameButStore_aluInputs code s .none⟩

end

/-! ## The results as numbers -/

theorem loHalf_toNat (w : Word) : (loHalf w).toNat = w.toNat % 65536 := by
  simp [loHalf, BitVec.extractLsb'_toNat]

theorem hiHalf_toNat (w : Word) : (hiHalf w).toNat = w.toNat / 65536 := by
  have hlt := w.isLt
  rw [hiHalf, BitVec.extractLsb'_toNat, Nat.shiftRight_eq_div_pow]
  omega

/-- R52: a word is its high half times 2^16 plus its low half. -/
theorem append_halves_toNat (hi lo : Half) : (hi ++ lo : BitVec (16 + 16)).toNat = hi.toNat * 65536 + lo.toNat := by
  rw [BitVec.toNat_append, ← Nat.shiftLeft_add_eq_or_of_lt lo.isLt, Nat.shiftLeft_eq]

section
variable (rsv v n old : Word)

theorem alu_write8_toNat : (alu rsv ⟨0, v, n⟩ old).toNat = v.toNat % 256 := by
  show ((v.extractLsb' 0 8).setWidth 32).toNat = _
  rw [BitVec.toNat_setWidth, BitVec.extractLsb'_toNat, Nat.shiftRight_zero]
  omega

theorem alu_write16_toNat : (alu rsv ⟨1, v, n⟩ old).toNat = v.toNat % 65536 := by
  show ((v.extractLsb' 0 16).setWidth 32).toNat = _
  rw [BitVec.toNat_setWidth, BitVec.extractLsb'_toNat, Nat.shiftRight_zero]
  omega

theorem alu_write32_toNat : (alu rsv ⟨2, v, n⟩ old).toNat = v.toNat := rfl

theorem alu_inc32_toNat : (alu rsv ⟨3, v, n⟩ old).toNat = (old.toNat + n.toNat) % 2 ^ 32 := BitVec.toNat_add old n

theorem alu_sum32_toNat : (alu rsv ⟨4, v, n⟩ old).toNat = (old.toNat + v.toNat) % 2 ^ 32 := BitVec.toNat_add old v

theorem alu_min32_toNat : (alu rsv ⟨5, v, n⟩ old).toNat = min old.toNat v.toNat := minU_toNat old v

theorem alu_max32_toNat : (alu rsv ⟨6, v, n⟩ old).toNat = max old.toNat v.toNat := maxU_toNat old v

theorem alu_minMax16_toNat :
    (alu rsv ⟨7, v, n⟩ old).toNat =
      max (old.toNat / 65536) (v.toNat / 65536) * 65536 + min (old.toNat % 65536) (v.toNat % 65536) := by
  show (minMaxHalves old v).toNat = _
  rw [minMaxHalves, append_halves_toNat, maxU_toNat, minU_toNat, hiHalf_toNat, hiHalf_toNat, loHalf_toNat, loHalf_toNat]

theorem alu_inc16Add16_toNat :
    (alu rsv ⟨8, v, n⟩ old).toNat =
      (old.toNat / 65536 + v.toNat % 65536) % 65536 * 65536 + (old.toNat % 65536 + 1) % 65536 := by
  show (incAddHalves old v).toNat = _
  rw [incAddHalves, append_halves_toNat, BitVec.toNat_add, BitVec.toNat_add, hiHalf_toNat, loHalf_toNat, loHalf_toNat]
  rfl

end

/-! ## The ALU ops -/

/-- Settles O40: each op is the tick of its code, and the word stored is that code's result. -/
theorem aluOpsCombineTheStoredWord : Obligations.AluOpsCombineTheStoredWord := by
  intro s a args hports hstores old v lo hi i result hop
  obtain ⟨code, hinputs, halu⟩ : ∃ code, captureInputsOf i s = some (.none, aluInputs code s) ∧
      ∀ rsv, (alu rsv ⟨code, v, args.n⟩ old).toNat = result := by
    rcases hop with ⟨rfl, rfl⟩ | ⟨rfl, rfl⟩ | ⟨rfl, rfl⟩ | ⟨rfl, rfl⟩ | ⟨rfl, rfl⟩ | ⟨rfl, rfl⟩ | ⟨rfl, rfl⟩ | ⟨rfl, rfl⟩ | ⟨rfl, rfl⟩
    · exact ⟨0, rfl, fun rsv => alu_write8_toNat rsv v args.n old⟩
    · exact ⟨1, rfl, fun rsv => alu_write16_toNat rsv v args.n old⟩
    · exact ⟨2, rfl, fun rsv => alu_write32_toNat rsv v args.n old⟩
    · exact ⟨3, rfl, fun rsv => alu_inc32_toNat rsv v args.n old⟩
    · exact ⟨4, rfl, fun rsv => alu_sum32_toNat rsv v args.n old⟩
    · exact ⟨5, rfl, fun rsv => alu_min32_toNat rsv v args.n old⟩
    · exact ⟨6, rfl, fun rsv => alu_max32_toNat rsv v args.n old⟩
    · exact ⟨7, rfl, fun rsv => alu_minMax16_toNat rsv v args.n old⟩
    · exact ⟨8, rfl, fun rsv => alu_inc16Add16_toNat rsv v args.n old⟩
  obtain ⟨t, hexec, hword, hframe⟩ := exec_aluOp_of_storesWith hports hinputs hstores
  exact ⟨t, hexec, (congrArg BitVec.toNat hword).trans (halu _), hframe⟩

/-- R82: a reserved ALU op presents its code as every other does. -/
theorem captureInputsOf_reservedAluOp {i : Instr} {code : BitVec 4} (s : State) (h : reservedAluCode i = some code) :
    captureInputsOf i s = some (.none, aluInputs code s) := by
  cases i <;> cases h <;> rfl

/-- Settles O41: the tick of a reserved code is the tick of an ALU op, of which the word stored is the one free part. -/
theorem reservedAluOpsRunOn : Obligations.ReservedAluOpsRunOn := by
  intro s i code a args hports hstores hcode
  obtain ⟨t, hexec, -, hframe⟩ := exec_aluOp_of_storesWith hports (captureInputsOf_reservedAluOp s hcode) hstores
  exact ⟨t, hexec, hframe⟩

/-- Settles O42: without a store the ring operation does the same under every ALU op, and the rest of the tick does not look at it. -/
theorem aluOpsMatterOnlyToAStore : Obligations.AluOpsMatterOnlyToAStore := by
  intro s i code hports hi hstore
  have hring : tickRing (aluInputs code s) s = tickRing s.inputs.cap s := by
    rw [tickRing, tickRingOp_aluInputs, runRing_withAlu_of_no_store _ code hstore, tickRing]
  rw [exec_aluOp hports hi, tickNext_aluInputs, hring]
  rfl

end Sys2Proof.Machine
end

section
/-! SUPPORT. Which flags of FifoStatus exclude each other: the watermarks report an occupancy that rose or fell, the rejections an
operation that left the ring as it was. -/

namespace Sys2Proof.Machine

section
variable {c : TraceConfig} {op : RingOp} {occ occ' : RingPtr}

/-- R178: a tick that rejects a push has no pop to reject. -/
theorem fifoNext_not_overflow_and_underflow :
    ¬((fifoNext c op occ occ').overflow = true ∧ (fifoNext c op occ occ').underflow = true) := by
  rintro ⟨hoverflow, hunderflow⟩
  obtain ⟨-, args, hpush⟩ := (fifoNext_overflow_iff ..).mp hoverflow
  obtain ⟨-, hpop⟩ := (fifoNext_underflow_iff ..).mp hunderflow
  exact RingOp.noConfusion (hpush.symm.trans hpop)

/-- R178: the high watermark is reached only from below. -/
theorem lt_of_fifoNext_highWatermark (h : (fifoNext c op occ occ').highWatermarkReached = true) : occ.toNat < occ'.toNat := by
  obtain ⟨hbefore, hafter⟩ := (fifoNext_highWatermark_iff ..).mp h
  exact hbefore.trans_le hafter

/-- R178: the low watermark is reached only from above. -/
theorem lt_of_fifoNext_lowWatermark (h : (fifoNext c op occ occ').lowWatermarkReached = true) : occ'.toNat < occ.toNat := by
  obtain ⟨hbefore, hafter⟩ := (fifoNext_lowWatermark_iff ..).mp h
  exact hafter.trans_lt hbefore

end

/-- R163, R164: a push or a pop that FifoStatus reports as rejected leaves the ring as it is. -/
theorem runRing_of_rejected {c : TraceConfig} {op : RingOp} {r : Ring} {occ' : RingPtr} (rsv : Word)
    (h : (fifoNext c op r.occ occ').overflow = true ∨ (fifoNext c op r.occ occ').underflow = true) : runRing rsv op r = r := by
  rcases h with hoverflow | hunderflow
  · obtain ⟨hfull, args, rfl⟩ := (fifoNext_overflow_iff ..).mp hoverflow
    exact pushRing_full rsv args r hfull
  · obtain ⟨hempty, rfl⟩ := (fifoNext_underflow_iff ..).mp hunderflow
    exact popRing_empty r hempty

/-- Settles O44: the occupancy rises for one watermark, falls for the other, and stays in a tick that rejects its operation. That the ring
is well-formed is not needed. -/
theorem statusFlagsExcludeOneAnother : Obligations.StatusFlagsExcludeOneAnother := by
  intro op inp s t _ hreset htick
  obtain rfl := eq_tickNext_of_captureTick_next hreset htick
  rw [tickNext_fifo]
  refine ⟨fifoNext_not_overflow_and_underflow, ?watermarks, ?rejected⟩
  case watermarks =>
    rintro ⟨hhigh, hlow⟩
    exact (lt_of_fifoNext_highWatermark hhigh).asymm (lt_of_fifoNext_lowWatermark hlow)
  case rejected =>
    intro hrejected
    have hring : tickRing inp s = s.ring := runRing_of_rejected _ hrejected
    rw [hring]
    exact ⟨Bool.eq_false_iff.mpr fun hhigh => (lt_of_fifoNext_highWatermark hhigh).false,
      Bool.eq_false_iff.mpr fun hlow => (lt_of_fifoNext_lowWatermark hlow).false⟩

end Sys2Proof.Machine
end

section
/-! SUPPORT. A capture operation in a reset tick: no operation presents a reset of its own, and with the ports' reset asserted the tick is
the reset of the capture domain, whatever the operation presents. -/

namespace Sys2Proof.Machine

/-- R81: an addressing op, at either request, leaves the reset input alone. -/
@[simp] theorem ringOpInputs_reset (code : BitVec 2) (port : ReqPort) (s : State) :
    (ringOpInputs code port s).reset = s.inputs.cap.reset := by
  cases port <;> rfl

/-- R22: the reset input of an operation's tick is the ports'. -/
theorem captureInputsOf_reset {i : Instr} {s : State} {op : MasterOp} {inp : CaptureInputs}
    (hi : captureInputsOf i s = some (op, inp)) : inp.reset = s.inputs.cap.reset := by
  cases i with
  | access port | resetPtrs port | push port | pop port => cases hi; exact ringOpInputs_reset ..
  | _ => cases hi <;> rfl

/-- R196: the reset of the capture domain is not the other domain's, and keeps the ports, the schedule and the number of nodes. -/
theorem keepsSurroundings_resetCapture (s : State) : KeepsSurroundings s (resetCapture s) :=
  ⟨rfl, rfl, rfl, rfl, List.length_map _⟩

/-- R196: a capture operation in a reset tick is the reset, whatever it presents. -/
theorem exec_of_reset {i : Instr} {s : State} {op : MasterOp} {inp : CaptureInputs} (hi : captureInputsOf i s = some (op, inp))
    (hreset : s.inputs.cap.reset = true) (hflight : s.inFlight = false) : exec i s = .next (resetCapture s) := by
  rw [exec_eq_captureTick hi, captureTick_of_reset ((captureInputsOf_reset hi).trans hreset) hflight]

/-- Settles O56: the operation is the reset, which leaves each register at its reset value. -/
theorem resetTickResetsTheCaptureDomain : Obligations.ResetTickResetsTheCaptureDomain := by
  intro i s op inp hi hreset hflight
  exact ⟨resetCapture s, exec_of_reset hi hreset hflight, resetCapture_nodes_eq_replicate s, resetCapture_master s,
    resetCapture_filter s, resetCapture_vbStored s, resetCapture_trig s, resetCapture_timer s, resetCapture_ring s, resetCapture_fifo s,
    resetCapture_svcResp s, resetCapture_xing s, resetCapture_out s, keepsSurroundings_resetCapture s⟩

end Sys2Proof.Machine
end

section
/-! SUPPORT. The reset machine with nothing presented: no node is SELECTED, so no sample enters; the trigger does not run, so nothing
fires; no request stands against the ring. Each tick then leaves every register but the timer. -/

namespace Sys2Proof.Machine

/-- The quiet inputs of R199 with this driver of the bus, and with these codes for the record op and the ALU op. -/
def quietInputs (bus : BusDriver) (recordOp : BitVec 2) (aluOp : BitVec 4) : CaptureInputs :=
  { CaptureInputs.quiet with bus := bus, rcfg := { CaptureInputs.quiet.rcfg with recordOp := recordOp, aluOp := aluOp } }

/-- The reset timer after `k` ticks at division rate 0 (R145). -/
def countedTimer (k : Nat) : Timer := { Timer.reset with timer := BitVec.ofNat 32 k }

/-- The reset machine with these inputs on its ports, with `k` ticks counted (R198). -/
def countedState (n timeout : Nat) (cap : CaptureInputs) (k : Nat) : State :=
  { State.resetWith n timeout with
    inputs := ⟨cap, ReadoutInputs.quiet⟩, timer := countedTimer k, free := k }

/-! ## The chain -/

theorem unselected_of_mem_replicate_reset {n : Nat} {m : Node} (hm : m ∈ List.replicate n Node.reset) : m.selected = false := by
  rw [List.eq_of_mem_replicate hm]
  rfl

/-- R49, R95: `CTL_IDLE` leaves a chain of reset nodes as it is. -/
theorem chainNext_zero_replicate_reset (n : Nat) :
    chainNext CtlWord.zero (List.replicate n Node.reset) = List.replicate n Node.reset := by
  rw [(chain_masked _).1, List.map_replicate]
  rfl

/-- R105: the response of a chain of reset nodes to `CTL_IDLE` is that of a reset tick. -/
theorem chainResponse_zero_replicate_reset (srcs : List Source) (n : Nat) :
    chainResponse CtlWord.zero srcs (List.replicate n Node.reset) = Outputs.reset.tgt := by
  rw [chainResponse, (chain_masked _).2, chainSelected_of_unselected fun _ => unselected_of_mem_replicate_reset,
    chainSample_of_unselected srcs fun _ => unselected_of_mem_replicate_reset]
  rfl

/-- R109: with nothing presented the reset master drives `CTL_IDLE`, as the quiet bus does. -/
theorem busWord_of_idle {bus : BusDriver} (hbus : bus = .master ∨ bus = .direct CtlWord.zero) :
    busWord bus .none Master.reset = CtlWord.zero := by
  rcases hbus with rfl | rfl <;> rfl

/-- R49: with nothing presented and no node SELECTED the reset master stays as it is. -/
theorem masterNext_reset {bus : BusDriver} (timeout : Nat) (hbus : bus = .master ∨ bus = .direct CtlWord.zero) :
    masterNext bus timeout .none false Master.reset = Master.reset := by
  rcases hbus with rfl | rfl <;> rfl

/-! ## The parts of a tick -/

/-- R145: at division rate 0 a tick that neither clears nor captures advances the timer. -/
theorem timerNext_of_rate_zero {c : TriggerConfig} (hclear : c.clear = false) (hrate : c.timerDiv = 0) (t : Timer) :
    timerNext c false false t = { t with timer := t.timer + 1, divCnt := 0 } := by
  have hdue : c.timerDiv.toNat ≤ t.divCnt.toNat := by
    rw [hrate]
    exact Nat.zero_le _
  rw [timerNext_within_session hclear, if_neg Bool.false_ne_true, timerCount_of_due hclear hdue]

/-- R145: the reset timer counts one tick more. -/
theorem timerNext_countedTimer {c : TriggerConfig} (hclear : c.clear = false) (hrate : c.timerDiv = 0) (k : Nat) :
    timerNext c false false (countedTimer k) = countedTimer (k + 1) := by
  unfold countedTimer
  rw [timerNext_of_rate_zero hclear hrate, BitVec.ofNat_add]
  rfl

/-- R178: with both watermarks 0 a tick that executes nothing on an empty buffer raises no flag. -/
theorem fifoNext_idle_empty {c : TraceConfig} (hhigh : c.highWatermark = 0) (hlow : c.lowWatermark = 0) :
    fifoNext c .idle 0 0 = FifoStatus.reset := by
  simp only [fifoNext, hhigh, hlow]
  rfl

/-- R63: without a request to present the crossing stays. -/
theorem crossingNext_of_not_presents {inp : CaptureInputs} {resp : SvcResp} {x : Crossing}
    (h : x.presents inp.xPresent = false) : crossingNext inp resp x = x := by
  rw [crossingNext, if_neg (ne_true_of_eq_false h)]

/-- R153: while no node is SELECTED the filter's history stays. -/
theorem filterNext_of_unselected {inp : CaptureInputs} {s : State} (h : ∀ m ∈ s.nodes, m.selected = false) :
    filterNext inp.fcfg (chainSample inp.src s.nodes) s.filter = s.filter := by
  rw [chainSample_of_unselected _ h, filterNext_of_not_admitted (filterAdmits_of_invalid rfl)]

/-! ## The tick -/

section
variable {bus : BusDriver} (n timeout : Nat) (recordOp : BitVec 2) (aluOp : BitVec 4) (k : Nat)

/-- R198: a tick with nothing presented counts, register by register. -/
theorem tickNext_countedState (hbus : bus = .master ∨ bus = .direct CtlWord.zero) :
    tickNext .none (quietInputs bus recordOp aluOp) (countedState n timeout (quietInputs bus recordOp aluOp) k) =
      countedState n timeout (quietInputs bus recordOp aluOp) (k + 1) := by
  let inp := quietInputs bus recordOp aluOp
  let s := countedState n timeout inp k
  have hunselected : ∀ m ∈ s.nodes, m.selected = false := fun _ => unselected_of_mem_replicate_reset
  have hword : tickCtl .none inp s = CtlWord.zero := busWord_of_idle hbus
  have hfired : tickFired inp s = Fired.none := tickFired_of_inactive rfl
  have htrig : tickTrigger inp s = TriggerState.reset := rfl
  have hrecord : (tickRecord inp s).valid = false :=
    tickRecord_invalid_of_unfired (congrArg Fired.data hfired) (congrArg Fired.inval hfired)
  have hservice : (serviceRequest s.xing inp).valid = false := rfl
  have hring : tickRing inp s = s.ring := tickRing_idle hrecord hservice
  have hempty : s.ring.occ = 0 := occ_zero_pointers [] false
  refine (State.mk.injEq ..).mpr ⟨?nodes, ?master, filterNext_of_unselected hunselected, valueBoundNext_of_disabled _ rfl, htrig, ?timer,
    hring, ?fifo, tickSvcResp_idle hrecord hservice, rfl, crossingNext_of_not_presents rfl, ?out, rfl, rfl, rfl, rfl⟩
  case nodes =>
    rw [hword]
    exact chainNext_zero_replicate_reset n
  case master =>
    rw [chainSelected_of_unselected hunselected]
    exact masterNext_reset timeout hbus
  case timer =>
    rw [tickNewSession_of_no_start (.inr (congrArg TriggerState.running htrig)), hfired]
    exact timerNext_countedTimer (c := inp.tcfg) rfl rfl k
  case fifo =>
    rw [tickRingOp_idle hrecord hservice, hring, hempty]
    exact fifoNext_idle_empty (c := inp.rcfg) rfl rfl
  case out =>
    rw [hword]
    exact congrArg₂ Outputs.mk (chainResponse_zero_replicate_reset _ n) (chain_masked _).2

/-- R198: every step of the reset machine with nothing presented and nothing scheduled counts. -/
theorem step_countedState (hbus : bus = .master ∨ bus = .direct CtlWord.zero) :
    step (countedState n timeout (quietInputs bus recordOp aluOp) k) =
      .next (countedState n timeout (quietInputs bus recordOp aluOp) (k + 1)) := by
  rw [← tickNext_countedState n timeout recordOp aluOp k hbus, step_of_script_nil rfl]
  exact captureTick_of_defined rfl (grantsServicePush_of_port _ nofun)

/-- R198, by induction on the steps. -/
theorem run_countedState (hbus : bus = .master ∨ bus = .direct CtlWord.zero) (j : Nat) :
    Host.Core.run Sys2Proof.core k (countedState n timeout (quietInputs bus recordOp aluOp) j) =
      .next (countedState n timeout (quietInputs bus recordOp aluOp) (j + k)) := by
  induction k generalizing j with
  | zero => rfl
  | succ k ih => rw [run_succ k (step_countedState n timeout recordOp aluOp j hbus), ih, Nat.add_right_comm, Nat.add_assoc]

end

/-- Settles O6: the run of `k` steps from the state that has counted no tick. -/
theorem quietMachineOnlyCounts : Obligations.QuietMachineOnlyCounts := by
  intro n timeout k bus recordOp aluOp hbus
  have hrun := run_countedState n timeout recordOp aluOp k hbus 0
  rw [Nat.zero_add] at hrun
  exact hrun

end Sys2Proof.Machine
end
